-- ==== Sys2Proof/Word.lean ====
section
/-! DEFINITION. The machine's word types (spec 00_scope R6, R8, R9; 10_state R20): every value is an unsigned
bit vector of its own width, and a register number is one of sixteen. -/

namespace Sys2Proof

/-- A byte of memory, a general register, a timer: 8 bits, unsigned (10_state R21, R26; 20_memory R51). -/
abbrev Byte := BitVec 8

/-- An address register, a stack slot or an opcode word: 16 bits (10_state R23, R24, R25, R32). -/
abbrev Word := BitVec 16

/-- A 12-bit address field `nnn` of an opcode (30_encoding R71). -/
abbrev Addr12 := BitVec 12

/-- The generator's state: 32 bits (10_state R33). -/
abbrev RngWord := BitVec 32

/-- The key matrix: key `k` is bit `k`, 1 when it is held down (10_state R30). -/
abbrev Keys := BitVec 16

/-- The number of a general register, 0 to 15 (10_state R21); each of the sixteen is legal in every
instruction that names one (30_encoding R73). -/
abbrev Reg := Fin 16

/-- The number of a display cell, 0 to 2047 (10_state R27). -/
abbrev Cell := Fin 2048

end Sys2Proof
end

