-- ==== Sys2Proof/Syntax.lean ====
section
/-! DEFINITION. The instructions: one constructor for each of the 34 rows of spec/opcode_table.json
(30_encoding R74), in the table's order. -/

namespace Sys2Proof

/-- An instruction with its operands (30_encoding R72, R73). `x` and `y` are register numbers, `nn` and `nnn`
immediates; the height `n` of DRW is a count, at most 15 in a well-formed instruction (WellFormed.lean). -/
inductive Instr where
  /-- `00E0` CLS, clear-screen (41_control R110). -/
  | cls
  /-- `00EE` RET, return-from-subroutine (41_control R111). -/
  | ret
  /-- `1NNN` JP nnn (41_control R112). -/
  | jp (nnn : Addr12)
  /-- `2NNN` CALL nnn (41_control R113). -/
  | call (nnn : Addr12)
  /-- `3XNN` SE Vx, nn (42_skip R120). -/
  | seImm (x : Reg) (nn : Byte)
  /-- `4XNN` SNE Vx, nn (42_skip R121). -/
  | sneImm (x : Reg) (nn : Byte)
  /-- `5XY0` SE Vx, Vy (42_skip R122). -/
  | seReg (x y : Reg)
  /-- `6XNN` LD Vx, nn (43_load_arith R139). -/
  | ldImm (x : Reg) (nn : Byte)
  /-- `7XNN` ADD Vx, nn (43_load_arith R140). -/
  | addImm (x : Reg) (nn : Byte)
  /-- `8XY0` LD Vx, Vy (43_load_arith R130). -/
  | ldReg (x y : Reg)
  /-- `8XY1` OR Vx, Vy (43_load_arith R131). -/
  | orReg (x y : Reg)
  /-- `8XY2` AND Vx, Vy (43_load_arith R132). -/
  | andReg (x y : Reg)
  /-- `8XY3` XOR Vx, Vy (43_load_arith R133). -/
  | xorReg (x y : Reg)
  /-- `8XY4` ADD Vx, Vy (43_load_arith R134). -/
  | addReg (x y : Reg)
  /-- `8XY5` SUB Vx, Vy (43_load_arith R135). -/
  | subReg (x y : Reg)
  /-- `8XY6` SHR Vx (43_load_arith R136); the field `y` is in the word and has no effect (30_encoding R78). -/
  | shr (x y : Reg)
  /-- `8XY7` SUBN Vx, Vy (43_load_arith R137). -/
  | subnReg (x y : Reg)
  /-- `8XYE` SHL Vx (43_load_arith R138); the field `y` is in the word and has no effect (30_encoding R78). -/
  | shl (x y : Reg)
  /-- `9XY0` SNE Vx, Vy (42_skip R123). -/
  | sneReg (x y : Reg)
  /-- `ANNN` LD I, nnn (43_load_arith R141). -/
  | ldI (nnn : Addr12)
  /-- `BNNN` JP V0, nnn (41_control R114). -/
  | jpV0 (nnn : Addr12)
  /-- `CXNN` RND Vx, nn (44_random R151). -/
  | rnd (x : Reg) (nn : Byte)
  /-- `DXYN` DRW Vx, Vy, n (45_draw R161). -/
  | drw (x y : Reg) (n : Nat)
  /-- `EX9E` SKP Vx (42_skip R124). -/
  | skp (x : Reg)
  /-- `EXA1` SKNP Vx (42_skip R125). -/
  | sknp (x : Reg)
  /-- `FX07` LD Vx, DT (47_timer_key R180). -/
  | ldVxDT (x : Reg)
  /-- `FX0A` LD Vx, K (47_timer_key R182). -/
  | ldVxK (x : Reg)
  /-- `FX15` LD DT, Vx (47_timer_key R181). -/
  | ldDTVx (x : Reg)
  /-- `FX18` LD ST, Vx (47_timer_key R183). -/
  | ldSTVx (x : Reg)
  /-- `FX1E` ADD I, Vx (43_load_arith R142). -/
  | addI (x : Reg)
  /-- `FX29` LD F, Vx (46_memory_ops R170). -/
  | ldF (x : Reg)
  /-- `FX33` LD B, Vx (46_memory_ops R171). -/
  | ldB (x : Reg)
  /-- `FX55` LD [I], Vx, register dump (46_memory_ops R172). -/
  | dump (x : Reg)
  /-- `FX65` LD Vx, [I], register load (46_memory_ops R173). -/
  | load (x : Reg)
  deriving DecidableEq, Repr

end Sys2Proof
end

