-- ==== Sys2Proof/Decode.lean ====
section
/-! DEFINITION. The decoder (30_encoding R71, R75), total on any bytes and rejecting by name; after it the encoder,
written from the same rows; then the opcode map of 30_encoding R74 as a list of rows. -/

namespace Sys2Proof

/-- `op[lo+k-1 : lo]`, the `k` bits of an opcode word from bit `lo` up, as a number (00_scope R8). -/
def slice (op : Word) (lo k : Nat) : Nat := op.toNat / 2 ^ lo % 2 ^ k

/-- The leading nibble `t = op[15:12]` (30_encoding R71). -/
def fieldT (op : Word) : Nat := slice op 12 4

/-- The register field `x = op[11:8]` (30_encoding R71). -/
def fieldX (op : Word) : Reg := ⟨slice op 8 4, Nat.mod_lt _ (by decide)⟩

/-- The register field `y = op[7:4]` (30_encoding R71). -/
def fieldY (op : Word) : Reg := ⟨slice op 4 4, Nat.mod_lt _ (by decide)⟩

/-- The trailing nibble `n = op[3:0]` (30_encoding R71). -/
def fieldN (op : Word) : Nat := slice op 0 4

/-- The trailing byte `nn = op[7:0]` (30_encoding R71). -/
def fieldNN (op : Word) : Byte := BitVec.ofNat 8 (slice op 0 8)

/-- The address field `nnn = op[11:0]` (30_encoding R71). -/
def fieldNNN (op : Word) : Addr12 := BitVec.ofNat 12 (slice op 0 12)

/-- Leading nibble 0: the whole word must match, `00E0` or `00EE` (30_encoding R75). -/
def decodeFixed (op : Word) : Option Instr :=
  match op.toNat with
  | 0x00E0 => some .cls
  | 0x00EE => some .ret
  | _ => none

/-- Leading nibble 8: the trailing nibble selects (30_encoding R75). -/
def decodeAlu (op : Word) : Option Instr :=
  match fieldN op with
  | 0x0 => some (.ldReg (fieldX op) (fieldY op))
  | 0x1 => some (.orReg (fieldX op) (fieldY op))
  | 0x2 => some (.andReg (fieldX op) (fieldY op))
  | 0x3 => some (.xorReg (fieldX op) (fieldY op))
  | 0x4 => some (.addReg (fieldX op) (fieldY op))
  | 0x5 => some (.subReg (fieldX op) (fieldY op))
  | 0x6 => some (.shr (fieldX op) (fieldY op))
  | 0x7 => some (.subnReg (fieldX op) (fieldY op))
  | 0xE => some (.shl (fieldX op) (fieldY op))
  | _ => none

/-- Leading nibble E: the trailing byte selects (30_encoding R75). -/
def decodeKey (op : Word) : Option Instr :=
  match slice op 0 8 with
  | 0x9E => some (.skp (fieldX op))
  | 0xA1 => some (.sknp (fieldX op))
  | _ => none

/-- Leading nibble F: the trailing byte selects (30_encoding R75). -/
def decodeMisc (op : Word) : Option Instr :=
  match slice op 0 8 with
  | 0x07 => some (.ldVxDT (fieldX op))
  | 0x0A => some (.ldVxK (fieldX op))
  | 0x15 => some (.ldDTVx (fieldX op))
  | 0x18 => some (.ldSTVx (fieldX op))
  | 0x1E => some (.addI (fieldX op))
  | 0x29 => some (.ldF (fieldX op))
  | 0x33 => some (.ldB (fieldX op))
  | 0x55 => some (.dump (fieldX op))
  | 0x65 => some (.load (fieldX op))
  | _ => none

/-- `Decode`, total on the 65536 words: one of the 34 instructions, or none for an unrecognised word
(30_encoding R75, R76; 40_step_cycle R94). Every fixed bit of a pattern is checked. -/
def decodeWord (op : Word) : Option Instr :=
  match fieldT op with
  | 0x0 => decodeFixed op
  | 0x1 => some (.jp (fieldNNN op))
  | 0x2 => some (.call (fieldNNN op))
  | 0x3 => some (.seImm (fieldX op) (fieldNN op))
  | 0x4 => some (.sneImm (fieldX op) (fieldNN op))
  | 0x5 => if fieldN op = 0 then some (.seReg (fieldX op) (fieldY op)) else none
  | 0x6 => some (.ldImm (fieldX op) (fieldNN op))
  | 0x7 => some (.addImm (fieldX op) (fieldNN op))
  | 0x8 => decodeAlu op
  | 0x9 => if fieldN op = 0 then some (.sneReg (fieldX op) (fieldY op)) else none
  | 0xA => some (.ldI (fieldNNN op))
  | 0xB => some (.jpV0 (fieldNNN op))
  | 0xC => some (.rnd (fieldX op) (fieldNN op))
  | 0xD => some (.drw (fieldX op) (fieldY op) (fieldN op))
  | 0xE => decodeKey op
  | 0xF => decodeMisc op
  | _ => none

/-- A big-endian 16-bit word from two bytes, `{hi, lo}` (20_memory R52). -/
def wordOfBytes (hi lo : Byte) : Word := BitVec.ofNat 16 (hi.toNat * 256 + lo.toNat)

/-- The more significant byte of a word, the one at the lower address (20_memory R52). -/
def hiByte (w : Word) : Byte := BitVec.ofNat 8 (w.toNat / 256)

/-- The less significant byte of a word. -/
def loByte (w : Word) : Byte := BitVec.ofNat 8 (w.toNat % 256)

/-- Why a sequence of bytes gives no instruction. -/
inductive Rejection where
  /-- Fewer than two bytes: every instruction is exactly one 16-bit word (30_encoding R70). -/
  | tooShort
  /-- The first word matches no row of 30_encoding R74: an unrecognised opcode (30_encoding R76). -/
  | unrecognised (op : Word)
  deriving DecidableEq, Repr

/-- What decoding a sequence of bytes gives. -/
inductive Decoded where
  /-- An instruction, and the bytes after its word. -/
  | instr (i : Instr) (rest : List Byte)
  /-- No instruction, and why. -/
  | rejected (why : Rejection)
  deriving DecidableEq, Repr

/-- The decoder on bytes as memory holds them, the first at the lowest address (20_memory R52, 30_encoding R70). -/
def decode : List Byte → Decoded
  | hi :: lo :: rest =>
    match decodeWord (wordOfBytes hi lo) with
    | some i => .instr i rest
    | none => .rejected (.unrecognised (wordOfBytes hi lo))
  | _ => .rejected .tooShort

/-- A word of format `FIXED`, all 16 bits given (30_encoding R72). -/
def packFixed (w : Nat) : Word := BitVec.ofNat 16 w

/-- A word of format `NNN`: `tttt nnnn nnnn nnnn` (30_encoding R72). -/
def packNNN (t : Nat) (nnn : Addr12) : Word := BitVec.ofNat 16 (t * 4096 + nnn.toNat)

/-- A word of formats `XNN` and `XKK`: `tttt xxxx kkkk kkkk` (30_encoding R72). -/
def packXKK (t : Nat) (x : Reg) (kk : Nat) : Word := BitVec.ofNat 16 (t * 4096 + x.val * 256 + kk)

/-- A word of format `XYN`: `tttt xxxx yyyy nnnn` (30_encoding R72). -/
def packXYN (t : Nat) (x y : Reg) (n : Nat) : Word :=
  BitVec.ofNat 16 (t * 4096 + x.val * 256 + y.val * 16 + n)

/-- The word of a well-formed instruction, from the pattern of its row (30_encoding R74). -/
def encodeWord : Instr → Word
  | .cls => packFixed 0x00E0
  | .ret => packFixed 0x00EE
  | .jp nnn => packNNN 0x1 nnn
  | .call nnn => packNNN 0x2 nnn
  | .seImm x nn => packXKK 0x3 x nn.toNat
  | .sneImm x nn => packXKK 0x4 x nn.toNat
  | .seReg x y => packXYN 0x5 x y 0x0
  | .ldImm x nn => packXKK 0x6 x nn.toNat
  | .addImm x nn => packXKK 0x7 x nn.toNat
  | .ldReg x y => packXYN 0x8 x y 0x0
  | .orReg x y => packXYN 0x8 x y 0x1
  | .andReg x y => packXYN 0x8 x y 0x2
  | .xorReg x y => packXYN 0x8 x y 0x3
  | .addReg x y => packXYN 0x8 x y 0x4
  | .subReg x y => packXYN 0x8 x y 0x5
  | .shr x y => packXYN 0x8 x y 0x6
  | .subnReg x y => packXYN 0x8 x y 0x7
  | .shl x y => packXYN 0x8 x y 0xE
  | .sneReg x y => packXYN 0x9 x y 0x0
  | .ldI nnn => packNNN 0xA nnn
  | .jpV0 nnn => packNNN 0xB nnn
  | .rnd x nn => packXKK 0xC x nn.toNat
  | .drw x y n => packXYN 0xD x y n
  | .skp x => packXKK 0xE x 0x9E
  | .sknp x => packXKK 0xE x 0xA1
  | .ldVxDT x => packXKK 0xF x 0x07
  | .ldVxK x => packXKK 0xF x 0x0A
  | .ldDTVx x => packXKK 0xF x 0x15
  | .ldSTVx x => packXKK 0xF x 0x18
  | .addI x => packXKK 0xF x 0x1E
  | .ldF x => packXKK 0xF x 0x29
  | .ldB x => packXKK 0xF x 0x33
  | .dump x => packXKK 0xF x 0x55
  | .load x => packXKK 0xF x 0x65

/-- The two bytes of a well-formed instruction as memory holds them (20_memory R52, 30_encoding R70). -/
def encode (i : Instr) : List Byte := [hiByte (encodeWord i), loByte (encodeWord i)]

/-- The instruction the decoder reads from a row's word, whose bit 0 is the least significant bit of the word; bits
from `nbits` up are 0, and bits above 15 do not exist (30_encoding R70). -/
def decodeTableWord (nbits w : Nat) : Option Instr :=
  let op : Word := BitVec.ofNat 16 (w % 2 ^ min nbits 16)
  match decode [hiByte op, loByte op] with
  | .instr i _ => some i
  | .rejected _ => none

/-- One row's fixed bits: a word `op` is in the row when `op & mask = value` (30_encoding R74). -/
structure OpcodeRow where
  value : Word
  mask : Word
  deriving DecidableEq, Repr

/-- The row of 30_encoding R74 that an instruction belongs to: its columns `match` and `mask`. -/
def Instr.row : Instr → OpcodeRow
  | .cls => ⟨0x00E0, 0xFFFF⟩
  | .ret => ⟨0x00EE, 0xFFFF⟩
  | .jp _ => ⟨0x1000, 0xF000⟩
  | .call _ => ⟨0x2000, 0xF000⟩
  | .seImm _ _ => ⟨0x3000, 0xF000⟩
  | .sneImm _ _ => ⟨0x4000, 0xF000⟩
  | .seReg _ _ => ⟨0x5000, 0xF00F⟩
  | .ldImm _ _ => ⟨0x6000, 0xF000⟩
  | .addImm _ _ => ⟨0x7000, 0xF000⟩
  | .ldReg _ _ => ⟨0x8000, 0xF00F⟩
  | .orReg _ _ => ⟨0x8001, 0xF00F⟩
  | .andReg _ _ => ⟨0x8002, 0xF00F⟩
  | .xorReg _ _ => ⟨0x8003, 0xF00F⟩
  | .addReg _ _ => ⟨0x8004, 0xF00F⟩
  | .subReg _ _ => ⟨0x8005, 0xF00F⟩
  | .shr _ _ => ⟨0x8006, 0xF00F⟩
  | .subnReg _ _ => ⟨0x8007, 0xF00F⟩
  | .shl _ _ => ⟨0x800E, 0xF00F⟩
  | .sneReg _ _ => ⟨0x9000, 0xF00F⟩
  | .ldI _ => ⟨0xA000, 0xF000⟩
  | .jpV0 _ => ⟨0xB000, 0xF000⟩
  | .rnd _ _ => ⟨0xC000, 0xF000⟩
  | .drw _ _ _ => ⟨0xD000, 0xF000⟩
  | .skp _ => ⟨0xE09E, 0xF0FF⟩
  | .sknp _ => ⟨0xE0A1, 0xF0FF⟩
  | .ldVxDT _ => ⟨0xF007, 0xF0FF⟩
  | .ldVxK _ => ⟨0xF00A, 0xF0FF⟩
  | .ldDTVx _ => ⟨0xF015, 0xF0FF⟩
  | .ldSTVx _ => ⟨0xF018, 0xF0FF⟩
  | .addI _ => ⟨0xF01E, 0xF0FF⟩
  | .ldF _ => ⟨0xF029, 0xF0FF⟩
  | .ldB _ => ⟨0xF033, 0xF0FF⟩
  | .dump _ => ⟨0xF055, 0xF0FF⟩
  | .load _ => ⟨0xF065, 0xF0FF⟩

/-- One instruction of each row, in the table's order: the rows are `opcodeSamples.map Instr.row`. -/
def opcodeSamples : List Instr :=
  [.cls, .ret, .jp 0, .call 0, .seImm 0 0, .sneImm 0 0, .seReg 0 0, .ldImm 0 0, .addImm 0 0] ++
  [.ldReg 0 0, .orReg 0 0, .andReg 0 0, .xorReg 0 0, .addReg 0 0, .subReg 0 0, .shr 0 0, .subnReg 0 0, .shl 0 0] ++
  [.sneReg 0 0, .ldI 0, .jpV0 0, .rnd 0 0, .drw 0 0 0, .skp 0, .sknp 0] ++
  [.ldVxDT 0, .ldVxK 0, .ldDTVx 0, .ldSTVx 0, .addI 0, .ldF 0, .ldB 0, .dump 0, .load 0]

/-- The 34 rows of the opcode map (30_encoding R74). -/
def opcodeRows : List OpcodeRow := opcodeSamples.map Instr.row

end Sys2Proof
end

