-- ==== Sys2Proof/Config.lean ====
section
/-! DEFINITION. What is fixed for one machine: the sizes of 00_scope R6, and the values the spec leaves open
(00_scope R7, 40_step_cycle R91), which are constants WITHOUT A BODY: no proof can see what they are. -/

namespace Sys2Proof.Config

/-- `MEM_SIZE`: addresses are 0 to 4095 (00_scope R6). -/
def memSize : Nat := 4096

/-- The highest legal fetch address (00_scope R6, 40_step_cycle R92). -/
def lastFetch : Nat := 4094

/-- `PROGRAM_ORIGIN`: the `pc` after reset and the default origin of a load (00_scope R6). -/
def programOrigin : Nat := 512

/-- `FONT_BYTES`: the font table fills addresses 0 to 79 after reset (00_scope R6). -/
def fontBytes : Nat := 80

/-- `FLAG_REGISTER`: the number of `VF` (00_scope R6, 10_state R22). -/
def flagRegister : Reg := 15

/-- `DISP_W` (00_scope R6). -/
def dispW : Nat := 64

/-- `DISP_H` (00_scope R6). -/
def dispH : Nat := 32

/-- `RNG_SEED` (00_scope R7, D11), OPEN: the launch supplies it. DESIGN CHOICE (log 1): left free. Safe. -/
opaque rngSeed : RngWord

/-- `RngNext` (44_random R150), OPEN: "A model must assume nothing of `RngNext` and `RngByte` beyond their being
total functions of their argument". DESIGN CHOICE (log 1): left free. Safe. -/
opaque rngNext : RngWord → RngWord

/-- `RngByte` (44_random R150), OPEN as `rngNext`. DESIGN CHOICE (log 1): left free. Safe. -/
opaque rngByte : RngWord → Byte

/-- The host's answer to the invocation of `KeySample()` with this number, where the state's list of answers holds
none: "an input of the step that no rule constrains" (40_step_cycle R91). DESIGN CHOICE (log 2): left free. Safe. -/
opaque freeKeys : Nat → Keys

end Sys2Proof.Config
end

