-- ==== Sys2Proof/Machine/State.lean ====
section
/-! DEFINITION. The machine's state as plain data (10_state R20), the reasons it stops, and the state after
reset (10_state R37). -/

namespace Sys2Proof.Machine

/-- The six fault kinds with their recorded values (60_exceptions R210). One is written into `State.fault` by the
step (or the `Load`) that raises it; afterwards `step` answers `.fault` with it, because a faulted machine has no
transition (10_state R34, 40_step_cycle R90). All are the spec's own, and safe: the repository's code would go on
where the model stops (60_exceptions R211). -/
inductive Fault where
  /-- Raised by the fetch of any step with `pc > 4094`; records `pc` (40_step_cycle R92). Safe. -/
  | pcOutOfRange (pc : Word)
  /-- Raised by DRW, LD B, LD [I] and LD Vx,[I] when a data address exceeds 4095; records the lowest such address
  (20_memory R55). Safe. -/
  | memOutOfRange (addr : Nat)
  /-- Raised by CALL with `sp = 15` (41_control R113). Safe. -/
  | stackOverflow
  /-- Raised by RET with `sp = 0` (41_control R111). Safe. -/
  | stackUnderflow
  /-- Raised by SKP and SKNP with `V[x] > 15`; records `V[x]` (42_skip R124, R125). Safe. -/
  | keyOutOfRange (k : Byte)
  /-- Raised by the host operation `Load` with `size > 4096 - origin` (48_host_operations R192). Safe. -/
  | loadSize
  deriving DecidableEq, Repr

/-- The reasons the model gives no meaning. -/
inductive Refusal where
  /-- An instruction that has no meaning in the model yet, by its mnemonic in the opcode table; raised by `exec`'s
  refused arms only, of which there is none. Safe. -/
  | notModelled (mnemonic : String)
  /-- A host operation other than `Reset` and `Step` while a step is held in a key wait, which the host "must not"
  apply (48_host_operations R203); raised by `applyHost`. Safe. -/
  | stepInProgress
  deriving DecidableEq, Repr

/-- What the core tells the host (48_host_operations R197 to R199, 40_step_cycle R98). -/
inductive Event where
  /-- One invocation of `KeySample()` (48_host_operations R197). -/
  | keySample
  /-- `Diag(op)` for the unrecognised word `op` (48_host_operations R199). -/
  | diag (op : Word)
  /-- `Beep()` (48_host_operations R198). -/
  | beep
  /-- A completed step's result (40_step_cycle R98). -/
  | returned (recognised : Bool)
  deriving DecidableEq, Repr

/-- Memory in its one canonical form: addresses strictly rising, no entry equal to what an unlisted address reads
as (Memory.lean). -/
abbrev Memory := List Host.Cell

/-- The display: 32 rows of 64 one-bit cells; cell `py * 64 + px` is bit `px` of row `py` (10_state R27, R28).
DESIGN CHOICE (log 8): the rows. Safe. -/
abbrev Display := Vector (BitVec 64) 32

/-- The MODEL's own record of the host's side of the ports (log 2, log 4). -/
structure Port where
  /-- The host's next answers to `KeySample()`, the first one first (40_step_cycle R91). -/
  samples : List Keys
  /-- How many times `KeySample()` has been invoked. -/
  sampleNo : Nat
  /-- What the core has told the host, newest first. -/
  events : List Event
  deriving DecidableEq, Repr

/-- The complete state of the block (10_state R20), then the model's own `waiting` and `port`. -/
structure State where
  /-- Memory (20_memory R50, R51). -/
  mem : Memory
  /-- The sixteen general registers; `V[15]` is `VF` (10_state R21, R22). -/
  V : Vector Byte 16
  /-- The index register (10_state R23). -/
  I : Word
  /-- The program counter (10_state R24). -/
  pc : Word
  /-- The sixteen stack slots (10_state R25). -/
  stack : Vector Word 16
  /-- The stack pointer, 0 to 15 (10_state R25). -/
  sp : Fin 16
  /-- The delay timer (10_state R26). -/
  DT : Byte
  /-- The sound timer (10_state R26). -/
  ST : Byte
  /-- The display (10_state R27). -/
  disp : Display
  /-- The dirty flag (10_state R29). -/
  dirty : Bool
  /-- The key matrix (10_state R30). -/
  keys : Keys
  /-- `last_opcode` (10_state R32). -/
  lastOpcode : Word
  /-- The generator's state (10_state R33). -/
  rng : RngWord
  /-- `none`, or the fault that stopped the machine (10_state R34). -/
  fault : Option Fault
  /-- The MODEL's own: a step is held in the wait of `LD Vx, K` (40_step_cycle R99, 60_exceptions R227; log 3). -/
  waiting : Bool
  /-- The MODEL's own: the host's side of the ports (log 2, log 4). -/
  port : Port
  deriving DecidableEq, Repr

/-- The state after `Reset` (10_state R37). Memory lists nothing: an unlisted address reads as its reset contents.
`rng` holds the OPEN parameter `RNG_SEED` (log 1). `waiting` and `port` are the model's own fields, and their values
here a DESIGN CHOICE (log 2, log 3, log 4). -/
def State.reset : State where
  mem := []
  V := Vector.replicate 16 0
  I := 0
  pc := BitVec.ofNat 16 Config.programOrigin
  stack := Vector.replicate 16 0
  sp := 0
  DT := 0
  ST := 0
  disp := Vector.replicate 32 0
  dirty := false
  keys := 0
  lastOpcode := 0
  rng := Config.rngSeed
  fault := none
  waiting := false
  port := { samples := [], sampleNo := 0, events := [] }

end Sys2Proof.Machine
end

