-- ==== Sys2Proof/Machine/Memory.lean ====
section
/-! DEFINITION. Memory: its reset contents with the font table (10_state R31, R37), reading and writing one byte,
the canonical form, and blocks of bytes (20_memory R50 to R57). -/

namespace Sys2Proof.Machine

/-- The font table (10_state R31): sixteen glyphs of five rows. -/
def font : List Byte :=
  [0xF0, 0x90, 0x90, 0x90, 0xF0] ++ [0x20, 0x60, 0x20, 0x20, 0x70] ++
  [0xF0, 0x10, 0xF0, 0x80, 0xF0] ++ [0xF0, 0x10, 0xF0, 0x10, 0xF0] ++
  [0x90, 0x90, 0xF0, 0x10, 0x10] ++ [0xF0, 0x80, 0xF0, 0x10, 0xF0] ++
  [0xF0, 0x80, 0xF0, 0x90, 0xF0] ++ [0xF0, 0x10, 0x20, 0x40, 0x40] ++
  [0xF0, 0x90, 0xF0, 0x90, 0xF0] ++ [0xF0, 0x90, 0xF0, 0x10, 0xF0] ++
  [0xF0, 0x90, 0xF0, 0x90, 0x90] ++ [0xE0, 0x90, 0xE0, 0x90, 0xE0] ++
  [0xF0, 0x80, 0x80, 0x80, 0xF0] ++ [0xE0, 0x90, 0x90, 0x90, 0xE0] ++
  [0xF0, 0x80, 0xF0, 0x80, 0xF0] ++ [0xF0, 0x80, 0xF0, 0x80, 0x80]

/-- What an unlisted address reads as: its contents after reset, the font table at 0 to 79 and 0 above
(10_state R37, 20_memory R56). -/
def initialByte (a : Nat) : Byte := font.getD a 0

/-- The byte at address `a` (00_scope R11, `MemRead(a, 1)`). The list rises, so the search stops at the first greater address. -/
def Memory.read : Memory → Nat → Byte
  | [], a => initialByte a
  | (k, b) :: rest, a => if a < k then initialByte a else if a = k then b else Memory.read rest a

/-- An entry in front of a list, left out when it says what an unlisted address says anyway. -/
def Memory.entry (a : Nat) (b : Byte) (rest : Memory) : Memory :=
  if b = initialByte a then rest else (a, b) :: rest

/-- Storing the byte `b` at address `a` (00_scope R11, `MemWrite(a, 1, b)`), keeping the canonical form. -/
def Memory.write : Memory → Nat → Byte → Memory
  | [], a, b => Memory.entry a b []
  | (k, c) :: rest, a, b =>
    if a < k then Memory.entry a b ((k, c) :: rest)
    else if a = k then Memory.entry a b rest
    else (k, c) :: Memory.write rest a b

/-- The canonical form from address `lo` up: addresses at least `lo`, strictly rising, below 4096, and no entry equal
to what an unlisted address reads as. -/
def Memory.wfFrom : Nat → Memory → Bool
  | _, [] => true
  | lo, (k, b) :: rest =>
    decide (lo ≤ k) && decide (k < Config.memSize) && decide (b ≠ initialByte k) && Memory.wfFrom (k + 1) rest

/-- Memory is in its canonical form. -/
def Memory.wf (m : Memory) : Bool := Memory.wfFrom 0 m

/-- Storing a block of bytes at successive addresses from `a` up (20_memory R54). -/
def Memory.writeBytes : Memory → Nat → List Byte → Memory
  | m, _, [] => m
  | m, a, b :: bs => Memory.writeBytes (Memory.write m a b) (a + 1) bs

/-- The instruction fetch's two bytes as a big-endian word, `MemRead(a, 2)` (20_memory R52). -/
def Memory.readWord (m : Memory) (a : Nat) : Word :=
  wordOfBytes (Memory.read m a) (Memory.read m (a + 1))

end Sys2Proof.Machine
end

