-- ==== Sys2Proof/Machine/Operands.lean ====
section
/-! DEFINITION. The operand forms: general registers, immediates, the key number, effective addresses and display
coordinates (30_encoding R73, 20_memory R55, 10_state R28). -/

namespace Sys2Proof.Machine

/-- The register operand `V[x]` (30_encoding R73). -/
def State.reg (s : State) (x : Reg) : Byte := s.V[x.val]

/-- A 12-bit immediate in a 16-bit register, `zext_16(nnn)` (30_encoding R73). -/
def zext16 (nnn : Addr12) : Word := nnn.setWidth 16

/-- A general register's value in a 16-bit register. -/
def zextByte (b : Byte) : Word := b.setWidth 16

/-- The effective address `I + k`, an integer that is not reduced (20_memory R55). -/
def State.effAddr (s : State) (k : Nat) : Nat := s.I.toNat + k

/-- All of `count` bytes from `I` up lie in memory (20_memory R55); no byte at all always does. -/
def State.accessible (s : State) (count : Nat) : Bool :=
  decide (count = 0) || decide (s.effAddr (count - 1) < Config.memSize)

/-- The lowest address above 4095 among the bytes from `I` up, where there is one: `max(I, 4096)` (60_exceptions R210). -/
def State.firstBadAddr (s : State) : Nat := max s.I.toNat Config.memSize

/-- Key `k` is held down (10_state R30). -/
def keyDown (ks : Keys) (k : Nat) : Bool := ks.getLsbD k

/-- The least key that is down, if any (47_timer_key R182). -/
def leastKeyDown (ks : Keys) : Option Nat := (List.range 16).find? (keyDown ks)

/-- The cell of pixel `(px, py)`, each coordinate reduced on its own: `(py mod 32) * 64 + px mod 64`
(10_state R28, 45_draw R163). -/
def cellAt (px py : Nat) : Cell := ⟨py % 32 * 64 + px % 64, by omega⟩

/-- `disp[c]` (10_state R27). -/
def Display.cell (d : Display) (c : Cell) : Bool := (d[c.val / 64]'(by omega)).getLsbD (c.val % 64)

/-- `disp[c] <- disp[c] ^ 1` (45_draw R161). -/
def Display.flip (d : Display) (c : Cell) : Display :=
  d.set (c.val / 64) ((d[c.val / 64]'(by omega)) ^^^ BitVec.twoPow 64 (c.val % 64)) (by omega)

/-- Every cell off (41_control R110). -/
def Display.blank : Display := Vector.replicate 32 0

end Sys2Proof.Machine
end

