-- ==== Sys2Proof/Machine/Flags.lean ====
section
/-! DEFINITION. The flag computations: what each of the six flag-writing instructions puts into `VF` (10_state R22),
on operands read before any write. -/

namespace Sys2Proof.Machine

/-- A flag as the 8-bit value `VF` takes, exactly 0 or 1 (10_state R22). -/
def flagByte (f : Bool) : Byte := if f then 1 else 0

/-- ADD Vx, Vy: the 8-bit sum exceeds 255 (43_load_arith R134). -/
def carryFlag (a b : Byte) : Bool := decide (255 < a.toNat + b.toNat)

/-- SUB and SUBN: the minuend is strictly greater than the subtrahend (43_load_arith R135, R137). -/
def greaterFlag (minuend subtrahend : Byte) : Bool := decide (subtrahend.toNat < minuend.toNat)

/-- SHR: the bit shifted out is bit 0 (43_load_arith R136). -/
def shiftRightFlag (a : Byte) : Bool := a.getLsbD 0

/-- SHL: the bit shifted out is bit 7 (43_load_arith R138). -/
def shiftLeftFlag (a : Byte) : Bool := a.getLsbD 7

end Sys2Proof.Machine
end

