-- ==== Sys2Proof/Machine/Ops.lean ====
section
/-! DEFINITION. The named operations over the state: writing one element, raising a fault, and the sub-steps of the
step cycle around an instruction (40_step_cycle R90). -/

namespace Sys2Proof.Machine

/-- `V[x] <- b` (10_state R21). -/
def State.setReg (s : State) (x : Reg) (b : Byte) : State := { s with V := s.V.set x.val b }

/-- The registers from a list of sixteen values, all written at once. -/
def State.setV (s : State) (v : Vector Byte 16) : State := { s with V := v }

/-- `V[15] <-` a flag (10_state R22). -/
def State.setFlag (s : State) (f : Bool) : State := s.setReg Config.flagRegister (flagByte f)

/-- `I <- w` (10_state R23). -/
def State.setI (s : State) (w : Word) : State := { s with I := w }

/-- `pc <- w` (10_state R24). -/
def State.setPc (s : State) (w : Word) : State := { s with pc := w }

/-- The sequential advance, `pc <- pc + 2` (40_step_cycle R95). -/
def State.advance (s : State) : State := s.setPc (s.pc + 2)

/-- A skip: `pc + 4` if the test holds, else `pc + 2` (40_step_cycle R95). -/
def State.skipIf (s : State) (test : Bool) : State := s.setPc (if test then s.pc + 4 else s.pc + 2)

/-- `stack[k] <- w` and `sp <- k` (41_control R113). -/
def State.pushAt (s : State) (k : Fin 16) (w : Word) : State := { s with stack := s.stack.set k.val w, sp := k }

/-- `sp <- k` (41_control R111). -/
def State.setSp (s : State) (k : Fin 16) : State := { s with sp := k }

/-- `stack[k]` (10_state R25). -/
def State.slot (s : State) (k : Fin 16) : Word := s.stack[k.val]

/-- `DT <- b` (10_state R26). -/
def State.setDT (s : State) (b : Byte) : State := { s with DT := b }

/-- `ST <- b` (10_state R26). -/
def State.setST (s : State) (b : Byte) : State := { s with ST := b }

/-- Memory after the stores of an instruction. -/
def State.setMem (s : State) (m : Memory) : State := { s with mem := m }

/-- The display written, and `dirty <- 1`, whether or not a cell changed (10_state R29). -/
def State.paint (s : State) (d : Display) : State := { s with disp := d, dirty := true }

/-- `rng <- w` (10_state R33). -/
def State.setRng (s : State) (w : RngWord) : State := { s with rng := w }

/-- `keys <- k`, the host's write (10_state R30). -/
def State.setKeys (s : State) (ks : Keys) : State := { s with keys := ks }

/-- The key wait begins, goes on or ends (40_step_cycle R99). -/
def State.setWaiting (s : State) (b : Bool) : State := { s with waiting := b }

/-- One event sent to the host (48_host_operations R197 to R199). -/
def State.emit (s : State) (e : Event) : State := { s with port := { s.port with events := e :: s.port.events } }

/-- The spec's own numbering of the fault kinds (60_exceptions R210). -/
def Fault.code : Fault → Nat
  | .pcOutOfRange _ => 1
  | .memOutOfRange _ => 2
  | .stackOverflow => 3
  | .stackUnderflow => 4
  | .keyOutOfRange _ => 5
  | .loadSize => 6

/-- Raising a fault: `fault` is set to the kind and nothing else changes (60_exceptions R211). It is the machine's
only exception; there is no trap entry and no return but `Reset` (60_exceptions R216, R218). -/
def State.raise (s : State) (k : Fault) : State := { s with fault := some k }

/-- An access to `count` bytes from `I` up, all or nothing: when one of them lies above 4095 the fault is raised
before any effect (20_memory R55). -/
def State.access (s : State) (count : Nat) (effect : State) : State :=
  if s.accessible count then effect else s.raise (.memOutOfRange s.firstBadAddr)

/-- The host's answer to the next `KeySample()`: the first of `port.samples`, else a free value (40_step_cycle R91). -/
def State.nextSample (s : State) : Keys := s.port.samples.headD (Config.freeKeys s.port.sampleNo)

/-- One invocation of `KeySample()`: `keys` takes the host's answer and nothing else of the core's changes
(40_step_cycle R91). -/
def State.refresh (s : State) : State :=
  { s with
    keys := s.nextSample
    port := { samples := s.port.samples.tail, sampleNo := s.port.sampleNo + 1,
              events := .keySample :: s.port.events } }

/-- `pc` is a legal fetch address (40_step_cycle R92). -/
def State.pcLegal (s : State) : Bool := decide (s.pc.toNat ≤ Config.lastFetch)

/-- The word at `pc`, big-endian (40_step_cycle R93). -/
def State.fetchWord (s : State) : Word := s.mem.readWord s.pc.toNat

/-- The fetch latches `last_opcode <- op` (40_step_cycle R93); a step is no longer held in an earlier wait. -/
def State.latch (s : State) (op : Word) : State := { s with lastOpcode := op, waiting := false }

/-- An unrecognised word: `Diag(op)` and `pc <- pc + 2`, nothing else (40_step_cycle R96). -/
def State.unrecognised (s : State) (op : Word) : State := (s.emit (.diag op)).advance

/-- A timer decremented toward zero, never below it (10_state R26). -/
def countDown (b : Byte) : Byte := if b = 0 then 0 else b - 1

/-- The timer tick: both timers count down, with one `Beep()` when `ST` was above 0 (40_step_cycle R97). -/
def State.timerTick (s : State) : State :=
  let t := (s.setDT (countDown s.DT)).setST (countDown s.ST)
  if s.ST = 0 then t else t.emit .beep

/-- The end of a step. `before` is the state after the refresh, `after` what the instruction (or the unrecognised
word) left. A fault leaves `before` with `fault` set (60_exceptions R211); a key wait is left as it is, with no tick
and no result (40_step_cycle R99); otherwise the timers tick and the result is returned (40_step_cycle R97, R98). -/
def State.settle (before : State) (recognised : Bool) (after : State) : State :=
  match after.fault with
  | some k => before.raise k
  | none => if after.waiting then after else after.timerTick.emit (.returned recognised)

/-- The end of a step on an instruction's outcome. -/
def finish (before : State) (recognised : Bool) :
    Host.Outcome State Fault Refusal → Host.Outcome State Fault Refusal
  | .next after => .next (before.settle recognised after)
  | .fault r => .fault r
  | .refused r => .refused r

/-- A word stored big-endian at `pc`, where the next step fetches, if `pc` is a legal fetch address (20_memory R52). -/
def State.placeWord (s : State) (op : Word) : State :=
  if s.pcLegal then s.setMem (s.mem.writeBytes s.pc.toNat [hiByte op, loByte op]) else s

end Sys2Proof.Machine
end

