-- ==== Sys2Proof/Machine/Control.lean ====
section
/-! DEFINITION. Unconditional control: CLS, RET, JP, CALL, JP V0 (41_control R110 to R114). -/

namespace Sys2Proof.Machine

/-- CLS: every cell off, `dirty` set (41_control R110). -/
def execCls (s : State) : Host.Outcome State Fault Refusal := .next (s.paint Display.blank).advance

/-- RET: read the slot, then decrement `sp`; `StackUnderflow` when `sp = 0` (41_control R111). -/
def execRet (s : State) : Host.Outcome State Fault Refusal :=
  .next (if s.sp = 0 then s.raise .stackUnderflow else (s.setPc (s.slot s.sp + 2)).setSp (s.sp - 1))

/-- JP nnn (41_control R112). -/
def execJp (nnn : Addr12) (s : State) : Host.Outcome State Fault Refusal := .next (s.setPc (zext16 nnn))

/-- CALL nnn: increment `sp`, then store this instruction's own address; `StackOverflow` when `sp = 15`
(41_control R113). -/
def execCall (nnn : Addr12) (s : State) : Host.Outcome State Fault Refusal :=
  .next (if s.sp = 15 then s.raise .stackOverflow else (s.pushAt (s.sp + 1) s.pc).setPc (zext16 nnn))

/-- JP V0, nnn: the sum is not reduced to 12 bits (41_control R114). -/
def execJpV0 (nnn : Addr12) (s : State) : Host.Outcome State Fault Refusal :=
  .next (s.setPc (zext16 nnn + zextByte (s.reg 0)))

end Sys2Proof.Machine
end

