-- ==== Sys2Proof/Machine/Draw.lean ====
section
/-! DEFINITION. Sprite draw: the framebuffer and the collision detector (45_draw R160 to R164). -/

namespace Sys2Proof.Machine

/-- The display so far, and whether a lit cell was met so far (45_draw R161, `hit`). -/
structure Canvas where
  disp : Display
  hit : Bool
  deriving DecidableEq, Repr

/-- Column `c` of a sprite row byte is bit `7 - c` (45_draw R160). -/
def pixelOn (b : Byte) (c : Nat) : Bool := b.getLsbD (7 - c)

/-- One sprite pixel on a cell: a set pixel flips the cell, and hits when the cell was on (45_draw R161, R162). -/
def Canvas.pixel (k : Canvas) (on : Bool) (cell : Cell) : Canvas :=
  if on then { disp := Display.flip k.disp cell, hit := k.hit || Display.cell k.disp cell } else k

/-- One sprite row of 8 pixels with its left edge at `(x0, py)` (45_draw R161). -/
def Canvas.row (k : Canvas) (b : Byte) (x0 py : Nat) : Canvas :=
  (List.range 8).foldl (fun k c => k.pixel (pixelOn b c) (cellAt (x0 + c) py)) k

/-- `n` sprite rows, row `r` the byte at `base + r` (45_draw R161). -/
def Canvas.sprite (k : Canvas) (m : Memory) (base x0 y0 n : Nat) : Canvas :=
  (List.range n).foldl (fun k r => k.row (m.read (base + r)) x0 (y0 + r)) k

/-- The sprite of DRW Vx, Vy, n drawn on the state's display. -/
def State.drawn (s : State) (x y : Reg) (n : Nat) : Canvas :=
  Canvas.sprite { disp := s.disp, hit := false } s.mem s.I.toNat (s.reg x).toNat (s.reg y).toNat n

/-- DRW Vx, Vy, n: the coordinates are read before `VF` is written; `MemOutOfRange` before anything is drawn
(45_draw R161). -/
def execDrw (x y : Reg) (n : Nat) (s : State) : Host.Outcome State Fault Refusal :=
  .next (s.access n (((s.paint (s.drawn x y n).disp).setFlag (s.drawn x y n).hit).advance))

end Sys2Proof.Machine
end

