-- ==== Sys2Proof/Machine/LoadArith.lean ====
section
/-! DEFINITION. Loads and arithmetic (43_load_arith R130 to R142): operands are read before any write, and a flag is
written last (R144). -/

namespace Sys2Proof.Machine

/-- `V[x] <- b`, then `pc <- pc + 2`: an instruction that writes no flag. -/
def State.result (s : State) (x : Reg) (b : Byte) : State := (s.setReg x b).advance

/-- `V[x] <- b`, then `V[15] <-` the flag, then `pc <- pc + 2`: with `x = 15` the flag is what stays
(43_load_arith R144). -/
def State.resultFlag (s : State) (x : Reg) (b : Byte) (f : Bool) : State := ((s.setReg x b).setFlag f).advance

/-- LD Vx, Vy (43_load_arith R130). -/
def execLdReg (x y : Reg) (s : State) : Host.Outcome State Fault Refusal := .next (s.result x (s.reg y))

/-- OR Vx, Vy (43_load_arith R131). -/
def execOrReg (x y : Reg) (s : State) : Host.Outcome State Fault Refusal := .next (s.result x (s.reg x ||| s.reg y))

/-- AND Vx, Vy (43_load_arith R132). -/
def execAndReg (x y : Reg) (s : State) : Host.Outcome State Fault Refusal := .next (s.result x (s.reg x &&& s.reg y))

/-- XOR Vx, Vy (43_load_arith R133). -/
def execXorReg (x y : Reg) (s : State) : Host.Outcome State Fault Refusal := .next (s.result x (s.reg x ^^^ s.reg y))

/-- ADD Vx, Vy (43_load_arith R134). -/
def execAddReg (x y : Reg) (s : State) : Host.Outcome State Fault Refusal :=
  .next (s.resultFlag x (s.reg x + s.reg y) (carryFlag (s.reg x) (s.reg y)))

/-- SUB Vx, Vy: `Vx - Vy` (43_load_arith R135). -/
def execSubReg (x y : Reg) (s : State) : Host.Outcome State Fault Refusal :=
  .next (s.resultFlag x (s.reg x - s.reg y) (greaterFlag (s.reg x) (s.reg y)))

/-- SHR Vx: one position, logical, in place; `y` is ignored (43_load_arith R136). -/
def execShr (x _y : Reg) (s : State) : Host.Outcome State Fault Refusal :=
  .next (s.resultFlag x (s.reg x >>> 1) (shiftRightFlag (s.reg x)))

/-- SUBN Vx, Vy: `Vy - Vx` (43_load_arith R137). -/
def execSubnReg (x y : Reg) (s : State) : Host.Outcome State Fault Refusal :=
  .next (s.resultFlag x (s.reg y - s.reg x) (greaterFlag (s.reg y) (s.reg x)))

/-- SHL Vx: one position, in place; `y` is ignored (43_load_arith R138). -/
def execShl (x _y : Reg) (s : State) : Host.Outcome State Fault Refusal :=
  .next (s.resultFlag x (s.reg x <<< 1) (shiftLeftFlag (s.reg x)))

/-- LD Vx, nn (43_load_arith R139). -/
def execLdImm (x : Reg) (nn : Byte) (s : State) : Host.Outcome State Fault Refusal := .next (s.result x nn)

/-- ADD Vx, nn: no flag (43_load_arith R140). -/
def execAddImm (x : Reg) (nn : Byte) (s : State) : Host.Outcome State Fault Refusal := .next (s.result x (s.reg x + nn))

/-- LD I, nnn (43_load_arith R141). -/
def execLdI (nnn : Addr12) (s : State) : Host.Outcome State Fault Refusal := .next (s.setI (zext16 nnn)).advance

/-- ADD I, Vx: 16 bits, no flag (43_load_arith R142). -/
def execAddI (x : Reg) (s : State) : Host.Outcome State Fault Refusal :=
  .next (s.setI (s.I + zextByte (s.reg x))).advance

end Sys2Proof.Machine
end

