-- ==== Sys2Proof/Machine/MemoryOps.lean ====
section
/-! DEFINITION. Index-addressed memory: LD F, LD B, LD [I], LD Vx,[I] (46_memory_ops R170 to R173). `I` is never changed
by the last three. -/

namespace Sys2Proof.Machine

/-- The decimal digits of a byte: hundreds, tens, units (46_memory_ops R171). -/
def bcdDigits (a : Byte) : List Byte :=
  [BitVec.ofNat 8 (a.toNat / 100), BitVec.ofNat 8 (a.toNat / 10 % 10), BitVec.ofNat 8 (a.toNat % 10)]

/-- The registers `V[0]` to `V[x]` in order (46_memory_ops R172). -/
def State.regsUpTo (s : State) (x : Reg) : List Byte := s.V.toList.take (x.val + 1)

/-- The registers with `V[0]` to `V[x]` read from memory at `I` up (46_memory_ops R173). -/
def State.regsLoaded (s : State) (x : Reg) : Vector Byte 16 :=
  Vector.ofFn fun k => if k ≤ x then s.mem.read (s.effAddr k.val) else s.reg k

/-- Memory after the bytes `bs` are stored at `I` up (20_memory R54). -/
def State.stored (s : State) (bs : List Byte) : Memory := s.mem.writeBytes (s.effAddr 0) bs

/-- LD F, Vx: the whole value times five (46_memory_ops R170). -/
def execLdF (x : Reg) (s : State) : Host.Outcome State Fault Refusal :=
  .next (s.setI (BitVec.ofNat 16 ((s.reg x).toNat * 5))).advance

/-- LD B, Vx: three digits at `I`, `I + 1`, `I + 2` (46_memory_ops R171). -/
def execLdB (x : Reg) (s : State) : Host.Outcome State Fault Refusal :=
  .next (s.access 3 (s.setMem (s.stored (bcdDigits (s.reg x)))).advance)

/-- LD [I], Vx: `V[0]` to `V[x]` at `I` up (46_memory_ops R172). -/
def execDump (x : Reg) (s : State) : Host.Outcome State Fault Refusal :=
  .next (s.access (x.val + 1) (s.setMem (s.stored (s.regsUpTo x))).advance)

/-- LD Vx, [I]: `V[0]` to `V[x]` from `I` up (46_memory_ops R173). -/
def execLoad (x : Reg) (s : State) : Host.Outcome State Fault Refusal :=
  .next (s.access (x.val + 1) (s.setV (s.regsLoaded x)).advance)

end Sys2Proof.Machine
end

