-- ==== Sys2Proof/Machine/Random.lean ====
section
/-! DEFINITION. The generator and RND (44_random R150 to R154). -/

namespace Sys2Proof.Machine

/-- `RngNext`, the OPEN parameter (44_random R150; log 1). -/
def rngNext (w : RngWord) : RngWord := Config.rngNext w

/-- `RngByte`, the OPEN parameter (44_random R150; log 1). -/
def rngByte (w : RngWord) : Byte := Config.rngByte w

/-- The state part of `NextMaskedByte(mask)`: the generator advances first (44_random R150). -/
def State.rngAdvanced (s : State) : State := s.setRng (rngNext s.rng)

/-- The value part of `NextMaskedByte(mask)`: the byte of the generator's new state, masked (44_random R150). -/
def State.maskedByte (s : State) (mask : Byte) : Byte := rngByte (rngNext s.rng) &&& mask

/-- RND Vx, nn: the generator advances exactly once (44_random R151). -/
def execRnd (x : Reg) (nn : Byte) (s : State) : Host.Outcome State Fault Refusal :=
  .next ((s.rngAdvanced.setReg x (s.maskedByte nn)).advance)

/-- The values of successive invocations of `NextMaskedByte`, one for each mask (44_random R153). -/
def State.maskedBytes (s : State) : List Byte → List Byte
  | [] => []
  | m :: ms => s.maskedByte m :: State.maskedBytes s.rngAdvanced ms

/-- The default of `RngNext`, xorshift 13, 17, 5 (44_random R152). The machine does not use it: it is there for claims
that instantiate the open parameter. -/
def defaultRngNext (w : RngWord) : RngWord :=
  let a := w ^^^ (w <<< 13)
  let b := a ^^^ (a >>> 17)
  b ^^^ (b <<< 5)

/-- The default of `RngByte`, the low 8 bits (44_random R152). -/
def defaultRngByte (w : RngWord) : Byte := w.setWidth 8

end Sys2Proof.Machine
end

