-- ==== Sys2Proof/Machine/Skip.lean ====
section
/-! DEFINITION. Conditional skips: SE, SNE, SKP, SKNP (42_skip R120 to R125). -/

namespace Sys2Proof.Machine

/-- A skip on the state of the key numbered `V[x]`; `KeyOutOfRange` when there is no such key (42_skip R124, R125). -/
def State.skipOnKey (s : State) (x : Reg) (down : Bool) : State :=
  if 15 < (s.reg x).toNat then s.raise (.keyOutOfRange (s.reg x))
  else s.skipIf (keyDown s.keys (s.reg x).toNat == down)

/-- SE Vx, nn (42_skip R120). -/
def execSeImm (x : Reg) (nn : Byte) (s : State) : Host.Outcome State Fault Refusal :=
  .next (s.skipIf (s.reg x == nn))

/-- SNE Vx, nn (42_skip R121). -/
def execSneImm (x : Reg) (nn : Byte) (s : State) : Host.Outcome State Fault Refusal :=
  .next (s.skipIf (s.reg x != nn))

/-- SE Vx, Vy (42_skip R122). -/
def execSeReg (x y : Reg) (s : State) : Host.Outcome State Fault Refusal :=
  .next (s.skipIf (s.reg x == s.reg y))

/-- SNE Vx, Vy (42_skip R123). -/
def execSneReg (x y : Reg) (s : State) : Host.Outcome State Fault Refusal :=
  .next (s.skipIf (s.reg x != s.reg y))

/-- SKP Vx: skip if the key is down (42_skip R124). -/
def execSkp (x : Reg) (s : State) : Host.Outcome State Fault Refusal := .next (s.skipOnKey x true)

/-- SKNP Vx: skip if the key is up (42_skip R125). -/
def execSknp (x : Reg) (s : State) : Host.Outcome State Fault Refusal := .next (s.skipOnKey x false)

end Sys2Proof.Machine
end

