-- ==== Sys2Proof/Machine/TimerKey.lean ====
section
/-! DEFINITION. Timers and the key wait (47_timer_key R180 to R183). The timer tick comes after the instruction, in the
same step (Ops.lean). -/

namespace Sys2Proof.Machine

/-- LD Vx, DT (47_timer_key R180). -/
def execLdVxDT (x : Reg) (s : State) : Host.Outcome State Fault Refusal := .next (s.setReg x s.DT).advance

/-- LD DT, Vx (47_timer_key R181). -/
def execLdDTVx (x : Reg) (s : State) : Host.Outcome State Fault Refusal := .next (s.setDT (s.reg x)).advance

/-- LD ST, Vx (47_timer_key R183). -/
def execLdSTVx (x : Reg) (s : State) : Host.Outcome State Fault Refusal := .next (s.setST (s.reg x)).advance

/-- The key wait on the current sample: the least key that is down ends it, and none leaves the step held
(47_timer_key R182). -/
def State.keyWait (s : State) (x : Reg) : State :=
  match leastKeyDown s.keys with
  | some k => ((s.setReg x (BitVec.ofNat 8 k)).setWaiting false).advance
  | none => s.setWaiting true

/-- LD Vx, K, as a stuttering step: the next step polls the host again (47_timer_key R182, 40_step_cycle R99; log 3). -/
def execLdVxK (x : Reg) (s : State) : Host.Outcome State Fault Refusal := .next (s.keyWait x)

end Sys2Proof.Machine
end

