-- ==== Sys2Proof/Machine/Step.lean ====
section
/-! DEFINITION. The step cycle (40_step_cycle R90): refresh, `pc` check, fetch, decode, execute, tick, result. -/

namespace Sys2Proof.Machine

/-- `Step()` (40_step_cycle R90). A faulted machine has no transition and answers its fault (10_state R34). A step that
raises a fault is a next state with `fault` set (60_exceptions R211). A step of `LD Vx, K` with no key down is a next
state that is still `waiting` (40_step_cycle R99). -/
def step (s : State) : Host.Outcome State Fault Refusal :=
  match s.fault with
  | some k => .fault k
  | none =>
    if s.refresh.pcLegal then
      match decodeWord s.refresh.fetchWord with
      | some i => finish s.refresh true (exec i (s.refresh.latch s.refresh.fetchWord))
      | none => finish s.refresh false (.next ((s.refresh.latch s.refresh.fetchWord).unrecognised s.refresh.fetchWord))
    else .next (s.refresh.raise (.pcOutOfRange s.refresh.pc))

/-- The state with a row's word stored where the next step fetches: a `Load` of its two bytes at `pc`
(48_host_operations R191; log 10). -/
def State.withFetchWord (s : State) (nbits w : Nat) : State := s.placeWord (BitVec.ofNat 16 (w % 2 ^ min nbits 16))

end Sys2Proof.Machine
end

