-- ==== Sys2Proof/Machine/HostOps.lean ====
section
/-! DEFINITION. The operations the host applies to the core (48_host_operations R190 to R196, R203). -/

namespace Sys2Proof.Machine

/-- The host's operations, each an atomic transition (48_host_operations R190 to R196). `Load`'s `size` is the number
of bytes given, and its `origin` is `none` when the host gives none (R191). -/
inductive HostOp where
  | reset
  | load (bytes : List Byte) (origin : Option Nat)
  | seed (w : RngWord)
  | step
  | writeKeys (ks : Keys)
  | clearDirty
  deriving DecidableEq, Repr

/-- `Reset`: every element of the block takes its reset value (48_host_operations R190). The host's own side of the
ports is not the block's and stays (log 9). -/
def State.hostReset (s : State) : State := { State.reset with port := s.port }

/-- The origin of a load: the one the host gives, else `PROGRAM_ORIGIN`, 512 (00_scope R6, 48_host_operations R191). -/
def loadOrigin (origin : Option Nat) : Nat := origin.getD Config.programOrigin

/-- A load fits: `origin <= 4096` and `size <= 4096 - origin` (48_host_operations R191, R192). -/
def loadFits (bytes : List Byte) (origin : Nat) : Bool :=
  decide (origin ≤ Config.memSize) && decide (bytes.length ≤ Config.memSize - origin)

/-- `Load(bytes, size, origin)`: the bytes verbatim and nothing else, or `fault <- LoadSize` and nothing else
(48_host_operations R191, R192). -/
def State.hostLoad (s : State) (bytes : List Byte) (origin : Nat) : State :=
  if loadFits bytes origin then s.setMem (s.mem.writeBytes origin bytes) else s.raise .loadSize

/-- `Seed(w)`: `rng <- w` (48_host_operations R193). -/
def State.hostSeed (s : State) (w : RngWord) : State := s.setRng w

/-- `WriteKeys(ks)`: `keys <- ks` (48_host_operations R195). -/
def State.hostWriteKeys (s : State) (ks : Keys) : State := s.setKeys ks

/-- `ClearDirty()`: `dirty <- 0` (48_host_operations R196). -/
def State.hostClearDirty (s : State) : State := { s with dirty := false }

/-- An operation that the host applies only between steps: refused while a step is held in a key wait
(48_host_operations R203). -/
def State.betweenSteps (s : State) (after : State) : Host.Outcome State Fault Refusal :=
  if s.waiting then .refused .stepInProgress else .next after

/-- One operation of the host. `Reset` is applied at any time (48_host_operations R190, R197). -/
def applyHost (op : HostOp) (s : State) : Host.Outcome State Fault Refusal :=
  match op with
  | .reset => .next s.hostReset
  | .load bytes origin => s.betweenSteps (s.hostLoad bytes (loadOrigin origin))
  | .seed w => s.betweenSteps (s.hostSeed w)
  | .step => step s
  | .writeKeys ks => s.betweenSteps (s.hostWriteKeys ks)
  | .clearDirty => s.betweenSteps s.hostClearDirty

/-- The MODEL's own: the host decides its next answers to `KeySample()` (40_step_cycle R91; log 2). -/
def State.withSamples (s : State) (answers : List Keys) : State :=
  { s with port := { s.port with samples := answers } }

end Sys2Proof.Machine
end

