-- ==== Sys2Proof/Safety.lean ====
section
/-! DEFINITION. The terms that claims use: when a step reaches an instruction, what counts as a safe run, what an
instruction leaves unchanged, and the invariant of the machine. -/

namespace Sys2Proof.Machine

/-- The step will fetch at `pc`: no fault is held and `pc` is a legal fetch address (40_step_cycle R90, R92). -/
def State.CanFetch (s : State) : Prop := s.fault = none ∧ s.pc.toNat ≤ 4094

/-- `k` steps from `s` complete, and the machine holds no fault after any of them (60_exceptions R211: "a claim about a
program must establish that no step of it faults"). -/
def State.SafeFor (s : State) (k : Nat) : Prop :=
  ∀ j ≤ k, ∃ t : State, Host.Core.run Sys2Proof.core j s = Host.Outcome.next t ∧ t.fault = none

/-- Every byte of memory reads as before. -/
def SameMemory (s t : State) : Prop := ∀ a, t.mem.read a = s.mem.read a

/-- Every byte of memory reads as before but the `n` bytes from `base` up. -/
def SameMemoryOutside (s t : State) (base n : Nat) : Prop :=
  ∀ a, (a < base ∨ base + n ≤ a) → t.mem.read a = s.mem.read a

/-- Nothing but `pc` changes. -/
def OnlyPc (s t : State) : Prop := t = { s with pc := t.pc } ∧ SameMemory s t

/-- Nothing but `V[x]` and `pc` changes. -/
def OnlyReg (s t : State) (x : Reg) : Prop :=
  t = { s with V := t.V, pc := t.pc } ∧ SameMemory s t ∧ ∀ r, r ≠ x → t.reg r = s.reg r

/-- Nothing but `V[x]`, the flag register `V[15]` and `pc` changes. -/
def OnlyRegFlag (s t : State) (x : Reg) : Prop :=
  t = { s with V := t.V, pc := t.pc } ∧ SameMemory s t ∧ ∀ r, r ≠ x → r ≠ 15 → t.reg r = s.reg r

/-- Nothing but `I` and `pc` changes. -/
def OnlyIndex (s t : State) : Prop := t = { s with I := t.I, pc := t.pc } ∧ SameMemory s t

/-- The instruction took the fault `k`: `fault` is set and nothing else is changed (60_exceptions R211). -/
def TakesFault (i : Instr) (s : State) (k : Fault) : Prop := exec i s = .next { s with fault := some k }

/-- The events of a timer tick that starts with `ST` at this value: one `Beep()` when it is above 0, else none
(40_step_cycle R97). -/
def beeps (st : Byte) : List Event := if st = 0 then [] else [.beep]

/-- The display cell of pixel `(px, py)` is on (10_state R28). -/
def State.pixel (s : State) (px py : Nat) : Bool := Display.cell s.disp (cellAt px py)

/-- The sprite of height `n` at `I`, placed with its top left corner at `(x0, y0)`, has a set pixel on cell `c`
(45_draw R160, R163). -/
def SpriteCovers (s : State) (x0 y0 n : Nat) (c : Cell) : Prop :=
  ∃ r < n, ∃ col < 8, (s.mem.read (s.I.toNat + r)).getLsbD (7 - col) = true ∧
    c.val = (y0 + r) % 32 * 64 + (x0 + col) % 64

/-- The step is held in a key wait: the word at `pc` is an `FX0A`, no key was down, and the latch holds the word
(40_step_cycle R99). -/
def State.HeldInKeyWait (s : State) : Prop :=
  s.CanFetch ∧ s.keys = 0 ∧ s.lastOpcode = s.fetchWord ∧ ∃ x, decodeWord s.fetchWord = some (.ldVxK x)

/-- The invariant of the machine: memory is in its canonical form; slot 0 of the stack holds 0 and every slot a legal
fetch address (10_state R25); `pc` is at most 4350, the highest value of 10_state R24; and a step that is waiting is
held in a key wait (40_step_cycle R99). -/
def State.Inv (s : State) : Prop :=
  s.mem.wf = true ∧ s.slot 0 = 0 ∧ (∀ k, (s.slot k).toNat ≤ 4094) ∧ s.pc.toNat ≤ 4350 ∧
    (s.waiting = true → s.HeldInKeyWait)

end Sys2Proof.Machine
end

