-- ==== Sys2Proof/Certificates/Slice0/Obligations.lean ====
section
/-! DEFINITION. The statements for the provers, in the order of spec/: reset and the invariant, encoding, the step
cycle, then the instruction families, the whole-machine rules and the host's operations. -/

open Sys2Proof Sys2Proof.Machine

/-- 10_state R37 with the font table of R31: every element's value after reset. -/
def Obligations.ResetStateIsTheTableOfResetValues : Prop :=
  (List.range 80).map State.reset.mem.read =
    [0xF0, 0x90, 0x90, 0x90, 0xF0, 0x20, 0x60, 0x20, 0x20, 0x70, 0xF0, 0x10, 0xF0, 0x80, 0xF0, 0xF0, 0x10, 0xF0, 0x10, 0xF0] ++
    [0x90, 0x90, 0xF0, 0x10, 0x10, 0xF0, 0x80, 0xF0, 0x10, 0xF0, 0xF0, 0x80, 0xF0, 0x90, 0xF0, 0xF0, 0x10, 0x20, 0x40, 0x40] ++
    [0xF0, 0x90, 0xF0, 0x90, 0xF0, 0xF0, 0x90, 0xF0, 0x10, 0xF0, 0xF0, 0x90, 0xF0, 0x90, 0x90, 0xE0, 0x90, 0xE0, 0x90, 0xE0] ++
    [0xF0, 0x80, 0x80, 0x80, 0xF0, 0xE0, 0x90, 0x90, 0x90, 0xE0, 0xF0, 0x80, 0xF0, 0x80, 0xF0, 0xF0, 0x80, 0xF0, 0x80, 0x80] ∧
  (∀ a, 80 ≤ a → a ≤ 4095 → State.reset.mem.read a = 0) ∧
  (∀ r, State.reset.reg r = 0) ∧ State.reset.I = 0 ∧ State.reset.pc = 512 ∧
  (∀ k, State.reset.slot k = 0) ∧ State.reset.sp = 0 ∧ State.reset.DT = 0 ∧ State.reset.ST = 0 ∧
  (∀ px py, State.reset.pixel px py = false) ∧ State.reset.dirty = false ∧ (∀ k < 16, keyDown State.reset.keys k = false) ∧
  State.reset.lastOpcode = 0 ∧ State.reset.rng = Config.rngSeed ∧ State.reset.fault = none

/-- The reset state meets the invariant. Its last clause, about the MODEL's field `waiting`, holds because the model resets
that field to false (log 3, DESIGN CHOICE); 10_state R37 lists no such element. -/
def Obligations.ResetMeetsInvariant : Prop := State.reset.Inv

/-- Every step keeps the invariant, whose last clause is about the MODEL's field `waiting` (log 3) (10_state R25, R24, R38; 20_memory R54; 40_step_cycle R99). -/
def Obligations.StepKeepsInvariant : Prop :=
  ∀ s t : State, s.Inv → step s = .next t → t.Inv

/-- Every operation of the host keeps the invariant (48_host_operations R190 to R196). Its last clause, about the MODEL's
field `waiting` (log 3), survives `Load` and `WriteKeys` because the MODEL refuses them inside a key wait (log 9). -/
def Obligations.HostOperationsKeepInvariant : Prop :=
  ∀ (op : HostOp) (s t : State), s.Inv → applyHost op s = .next t → t.Inv

/-- Decoding the bytes of an encoded well-formed instruction gives it back, and leaves the bytes after it. -/
def Obligations.DecodingAnEncodedInstructionGivesItBack : Prop :=
  ∀ (i : Instr) (rest : List Byte), i.wellFormed = true → decode (encode i ++ rest) = .instr i rest

/-- A word that decodes is the word of its instruction, which is well formed: no bit of a word is dropped. -/
def Obligations.EncodingADecodedWordGivesItBack : Prop :=
  ∀ (op : Word) (i : Instr), decodeWord op = some i → i.wellFormed = true ∧ encodeWord i = op

/-- 30_encoding R74: the 34 rows with their `match` and `mask`, pairwise disjoint; a word selects the row for which
`op & mask = match`, and a word in no row is unrecognised. -/
def Obligations.OpcodeWordSelectsItsOnlyRow : Prop :=
  opcodeRows =
    [⟨0x00E0, 0xFFFF⟩, ⟨0x00EE, 0xFFFF⟩, ⟨0x1000, 0xF000⟩, ⟨0x2000, 0xF000⟩, ⟨0x3000, 0xF000⟩, ⟨0x4000, 0xF000⟩, ⟨0x5000, 0xF00F⟩] ++
    [⟨0x6000, 0xF000⟩, ⟨0x7000, 0xF000⟩, ⟨0x8000, 0xF00F⟩, ⟨0x8001, 0xF00F⟩, ⟨0x8002, 0xF00F⟩, ⟨0x8003, 0xF00F⟩, ⟨0x8004, 0xF00F⟩] ++
    [⟨0x8005, 0xF00F⟩, ⟨0x8006, 0xF00F⟩, ⟨0x8007, 0xF00F⟩, ⟨0x800E, 0xF00F⟩, ⟨0x9000, 0xF00F⟩, ⟨0xA000, 0xF000⟩, ⟨0xB000, 0xF000⟩] ++
    [⟨0xC000, 0xF000⟩, ⟨0xD000, 0xF000⟩, ⟨0xE09E, 0xF0FF⟩, ⟨0xE0A1, 0xF0FF⟩, ⟨0xF007, 0xF0FF⟩, ⟨0xF00A, 0xF0FF⟩, ⟨0xF015, 0xF0FF⟩] ++
    [⟨0xF018, 0xF0FF⟩, ⟨0xF01E, 0xF0FF⟩, ⟨0xF029, 0xF0FF⟩, ⟨0xF033, 0xF0FF⟩, ⟨0xF055, 0xF0FF⟩, ⟨0xF065, 0xF0FF⟩] ∧
  opcodeRows.Pairwise (fun p q => ∀ op : Word, ¬(op &&& p.mask = p.value ∧ op &&& q.mask = q.value)) ∧
  (∀ op : Word, ∀ r ∈ opcodeRows, op &&& r.mask = r.value → ∃ i, decodeWord op = some i ∧ i.row = r) ∧
  (∀ op : Word, (∀ r ∈ opcodeRows, op &&& r.mask ≠ r.value) → decodeWord op = none)

/-- The unrecognised words, nibble by nibble, are those of the table of 30_encoding R76. -/
def Obligations.UnrecognisedWordsAreThoseOfTheTable : Prop :=
  ∀ op : Word, decodeWord op = none ↔
    (op.toNat / 4096 = 0x0 ∧ op.toNat ≠ 0x0E0 ∧ op.toNat ≠ 0x0EE) ∨
    (op.toNat / 4096 = 0x5 ∧ op.toNat % 16 ≠ 0) ∨
    (op.toNat / 4096 = 0x8 ∧ op.toNat % 16 ∈ [8, 9, 0xA, 0xB, 0xC, 0xD, 0xF]) ∨
    (op.toNat / 4096 = 0x9 ∧ op.toNat % 16 ≠ 0) ∨
    (op.toNat / 4096 = 0xE ∧ op.toNat % 256 ∉ [0x9E, 0xA1]) ∨
    (op.toNat / 4096 = 0xF ∧ op.toNat % 256 ∉ [0x07, 0x0A, 0x15, 0x18, 0x1E, 0x29, 0x33, 0x55, 0x65])

/-- A word of each family, written out from its pattern, decodes to its instruction. -/
def Obligations.WordsWrittenFromThePatternsDecode : Prop :=
  decode [0x00, 0xEE] = .instr .ret [] ∧ decode [0x23, 0x00] = .instr (.call 0x300) [] ∧
  decode [0x31, 0x05] = .instr (.seImm 1 0x05) [] ∧ decode [0x81, 0x24] = .instr (.addReg 1 2) [] ∧
  decode [0xC1, 0x0F] = .instr (.rnd 1 0x0F) [] ∧ decode [0xD1, 0x25] = .instr (.drw 1 2 5) [] ∧
  decode [0xF2, 0x55] = .instr (.dump 2) [] ∧ decode [0xF3, 0x0A] = .instr (.ldVxK 3) [] ∧
  decode [0x01, 0xE0] = .rejected (.unrecognised 0x01E0)

/-- 40_step_cycle R93, with 20_memory R52: the fetch is big-endian and leaves `pc`, and `last_opcode` holds the word after
every step that raises no fault, of a recognised or an unrecognised word. -/
def Obligations.FetchIsBigEndianAndLatched : Prop :=
  ∀ s : State, s.fetchWord.toNat = (s.mem.read s.pc.toNat).toNat * 256 + (s.mem.read (s.pc.toNat + 1)).toNat ∧
    (s.refresh.latch s.fetchWord).pc = s.pc ∧ (s.refresh.latch s.fetchWord).lastOpcode = s.fetchWord ∧
    ∀ t, s.CanFetch → step s = .next t → t.fault = none → t.lastOpcode = s.fetchWord

/-- 40_step_cycle R90, R94: when the bytes at `pc` decode to `i`, the step is `exec i` at the state after the refresh and
the latch; then a fault is kept alone, a key wait stays held (the MODEL's stuttering step, log 3), and any other step
ticks and returns `true` (in the MODEL's record of the ports, log 4). -/
def Obligations.StepRunsTheDecodedInstruction : Prop :=
  ∀ (s t : State) (i : Instr), s.CanFetch →
    decode [s.mem.read s.pc.toNat, s.mem.read (s.pc.toNat + 1)] = .instr i [] →
    exec i (s.refresh.latch s.fetchWord) = .next t →
    (t.fault = none → t.waiting = false → step s = .next (t.timerTick.emit (.returned true))) ∧
    (t.fault = none → t.waiting = true → step s = .next t) ∧
    (∀ k, t.fault = some k → step s = .next (s.refresh.raise k))

/-- 40_step_cycle R91, in the MODEL's form of the host's answers (log 2): each of the MODEL's steps, in which a key wait
stutters and every poll is a step of its own (log 3), takes exactly one sample, which becomes the key matrix and which
the host chooses freely; nothing the core does in the step changes `keys` again. -/
def Obligations.EveryStepTakesOneFreeKeySample : Prop :=
  (∀ (s t : State), s.fault = none → step s = .next t →
    t.keys = s.nextSample ∧ t.port.samples = s.port.samples.tail ∧ t.port.sampleNo = s.port.sampleNo + 1) ∧
  (∀ (s : State) (ks : Keys) (rest : List Keys), s.port.samples = ks :: rest → s.nextSample = ks) ∧
  (∀ s : State, s.refresh = { s with keys := s.refresh.keys, port := s.refresh.port })

/-- 40_step_cycle R92: a step with `pc > 4094` raises `PcOutOfRange(pc)` before the fetch. -/
def Obligations.FetchAbove4094Faults : Prop :=
  ∀ s : State, s.fault = none → 4094 < s.pc.toNat →
    ∃ t, step s = .next t ∧ t.fault = some (.pcOutOfRange s.pc) ∧
      t = { s with keys := t.keys, fault := t.fault, port := t.port } ∧ SameMemory s t

/-- 40_step_cycle R96: the complete behaviour of an unrecognised word, with its `Diag`, `Beep` and result in the MODEL's
record of the ports (log 4). -/
def Obligations.UnrecognisedWordAdvancesTicksAndReports : Prop :=
  ∀ s : State, s.CanFetch → decodeWord s.fetchWord = none → ∃ t, step s = .next t ∧
    t.pc = s.pc + 2 ∧ t.lastOpcode = s.fetchWord ∧ t.keys = s.nextSample ∧
    t.DT.toNat = s.DT.toNat - 1 ∧ t.ST.toNat = s.ST.toNat - 1 ∧
    t.port.events = Event.returned false :: (beeps s.ST ++ Event.diag s.fetchWord :: Event.keySample :: s.port.events) ∧
    t = { s with pc := t.pc, lastOpcode := t.lastOpcode, keys := t.keys, DT := t.DT, ST := t.ST, waiting := false, port := t.port } ∧
    SameMemory s t

/-- 10_state R34: `fault` is `none` after reset; a step that raises a fault sets it and changes nothing else that the core
writes; a faulted machine has no step. -/
def Obligations.FaultIsStickyAndChangesNothingElse : Prop :=
  State.reset.fault = none ∧
  (∀ (s t : State) (k : Fault), s.fault = none → step s = .next t → t.fault = some k →
    t = { s with keys := s.nextSample, fault := some k, port := t.port } ∧ SameMemory s t) ∧
  (∀ (s : State) (k : Fault), s.fault = some k → step s = .fault k)

/-- 60_exceptions R210: which instruction raises which fault, when, and what it records; no other instruction faults. -/
def Obligations.InstructionsFaultOnlyAsListed : Prop :=
  ∀ (i : Instr) (s t : State) (k : Fault), s.fault = none → exec i s = .next t → t.fault = some k →
    ((∃ nnn, i = .call nnn) ∧ s.sp = 15 ∧ k = .stackOverflow) ∨
    (i = .ret ∧ s.sp = 0 ∧ k = .stackUnderflow) ∨
    (∃ x, (i = .skp x ∨ i = .sknp x) ∧ 15 < (s.reg x).toNat ∧ k = .keyOutOfRange (s.reg x)) ∨
    (k = .memOutOfRange (max s.I.toNat 4096) ∧
      ((∃ x y n, i = .drw x y n ∧ 0 < n ∧ 4095 < s.I.toNat + n - 1) ∨ (∃ x, i = .ldB x ∧ 4095 < s.I.toNat + 2) ∨
       (∃ x, (i = .dump x ∨ i = .load x) ∧ 4095 < s.I.toNat + x.val)))

/-- 40_step_cycle R97: a completed step of an instruction that sets no timer ticks both once, and beeps once when `ST` was
above 0, in the MODEL's record of the ports (log 4). Completed: without a fault and not held, in the MODEL's field
`waiting` (log 3). -/
def Obligations.CompletedStepTicksOnce : Prop :=
  ∀ (s t : State) (i : Instr), s.CanFetch → decodeWord s.fetchWord = some i →
    (∀ x, i ≠ .ldDTVx x) → (∀ x, i ≠ .ldSTVx x) → step s = .next t → t.fault = none → t.waiting = false →
    t.DT.toNat = s.DT.toNat - 1 ∧ t.ST.toNat = s.ST.toNat - 1 ∧
    t.port.events = Event.returned true :: (beeps s.ST ++ Event.keySample :: s.port.events)

/-- 70_reset_and_hazards R235: the tick of the step that sets a timer sees the new value, and so does its beep, in the MODEL's record of
the ports (log 4). -/
def Obligations.TimerSetIsTickedInItsOwnStep : Prop :=
  (∀ (s : State) (x : Reg), s.CanFetch → decodeWord s.fetchWord = some (.ldDTVx x) →
    ∃ t, step s = .next t ∧ t.fault = none ∧ t.DT.toNat = (s.reg x).toNat - 1 ∧ t.ST.toNat = s.ST.toNat - 1) ∧
  (∀ (s : State) (x : Reg), s.CanFetch → decodeWord s.fetchWord = some (.ldSTVx x) →
    ∃ t, step s = .next t ∧ t.fault = none ∧ t.ST.toNat = (s.reg x).toNat - 1 ∧ t.DT.toNat = s.DT.toNat - 1 ∧
      t.port.events = Event.returned true :: (beeps (s.reg x) ++ Event.keySample :: s.port.events))

/-- The engine never halts itself (40_step_cycle R96, R101): a machine without a fault always has a next state. In the
MODEL: a key wait that goes on is a next state that is still waiting (log 3), where R100 says the spec's step never ends,
and a step that raises a fault is a next state with `fault` set (log 5), where R211 says it completes nothing. -/
def Obligations.MachineWithoutFaultAlwaysSteps : Prop :=
  ∀ s : State, s.fault = none → ∃ t, step s = .next t

/-- A run is safe, each of its states without a fault, exactly when its last state has none: a fault is sticky (10_state
R34), and the core stops for nothing else (60_exceptions R211, R213). The steps counted are the MODEL's, in which a key
wait stutters (log 3) and a step that raises a fault is a next state with `fault` set (log 5). -/
def Obligations.RunIsSafeExactlyWhenItsLastStateIs : Prop :=
  ∀ (s : State) (k : Nat), s.SafeFor k ↔
    ∃ t : State, Host.Core.run Sys2Proof.core k s = Host.Outcome.next t ∧ t.fault = none

/-- 41_control R110. -/
def Obligations.ClearScreenTurnsEveryCellOff : Prop :=
  decodeWord 0x00E0 = some .cls ∧
  ∀ s : State, ∃ t, exec .cls s = .next t ∧ (∀ c, Display.cell t.disp c = false) ∧ t.dirty = true ∧ t.pc = s.pc + 2 ∧
    t = { s with disp := t.disp, dirty := t.dirty, pc := t.pc } ∧ SameMemory s t

/-- 41_control R111. -/
def Obligations.ReturnReadsSlotThenDecrements : Prop :=
  decodeWord 0x00EE = some .ret ∧
  (∀ s : State, s.sp = 0 → TakesFault .ret s .stackUnderflow) ∧
  (∀ s : State, s.sp ≠ 0 → ∃ t, exec .ret s = .next t ∧ t.pc.toNat = ((s.slot s.sp).toNat + 2) % 65536 ∧
    t.sp.val = s.sp.val - 1 ∧ t = { s with pc := t.pc, sp := t.sp } ∧ SameMemory s t)

/-- 41_control R112. -/
def Obligations.JumpGoesToItsAddress : Prop :=
  ∀ (nnn : Addr12) (s : State), decodeWord (packNNN 0x1 nnn) = some (.jp nnn) ∧
    ∃ t, exec (.jp nnn) s = .next t ∧ t.pc.toNat = nnn.toNat ∧ OnlyPc s t

/-- 41_control R113. -/
def Obligations.CallSavesItsOwnAddress : Prop :=
  (∀ nnn, decodeWord (packNNN 0x2 nnn) = some (.call nnn)) ∧
  (∀ (nnn : Addr12) (s : State), s.sp = 15 → TakesFault (.call nnn) s .stackOverflow) ∧
  (∀ (nnn : Addr12) (s : State), s.sp ≠ 15 → ∃ t, exec (.call nnn) s = .next t ∧ t.sp.val = s.sp.val + 1 ∧
    t.slot t.sp = s.pc ∧ (∀ k, k ≠ t.sp → t.slot k = s.slot k) ∧ t.pc.toNat = nnn.toNat ∧
    t = { s with pc := t.pc, sp := t.sp, stack := t.stack } ∧ SameMemory s t)

/-- 41_control R114. -/
def Obligations.JumpWithOffsetAddsRegisterZero : Prop :=
  ∀ (nnn : Addr12) (s : State), decodeWord (packNNN 0xB nnn) = some (.jpV0 nnn) ∧
    ∃ t, exec (.jpV0 nnn) s = .next t ∧ t.pc.toNat = nnn.toNat + (s.reg 0).toNat ∧ OnlyPc s t

/-- 41_control R115: a CALL, then a RET on the same stack, resumes after the CALL with `sp` as before it. -/
def Obligations.ReturnUndoesCall : Prop :=
  ∀ (nnn : Addr12) (s : State), s.sp ≠ 15 → ∃ t, exec (.call nnn) s = .next t ∧
    ∀ t' : State, t'.stack = t.stack → t'.sp = t.sp → ∃ u, exec .ret t' = .next u ∧ u.pc = s.pc + 2 ∧ u.sp = s.sp

/-- 42_skip R120, R121. -/
def Obligations.SkipsOnImmediateComparison : Prop :=
  ∀ (x : Reg) (nn : Byte) (s : State),
    decodeWord (packXKK 0x3 x nn.toNat) = some (.seImm x nn) ∧ decodeWord (packXKK 0x4 x nn.toNat) = some (.sneImm x nn) ∧
    (∃ t, exec (.seImm x nn) s = .next t ∧
      (s.reg x = nn → t.pc = s.pc + 4) ∧ (s.reg x ≠ nn → t.pc = s.pc + 2) ∧ OnlyPc s t) ∧
    (∃ t, exec (.sneImm x nn) s = .next t ∧
      (s.reg x ≠ nn → t.pc = s.pc + 4) ∧ (s.reg x = nn → t.pc = s.pc + 2) ∧ OnlyPc s t)

/-- 42_skip R122, R123. -/
def Obligations.SkipsOnRegisterComparison : Prop :=
  ∀ (x y : Reg) (s : State),
    decodeWord (packXYN 0x5 x y 0) = some (.seReg x y) ∧ decodeWord (packXYN 0x9 x y 0) = some (.sneReg x y) ∧
    (∃ t, exec (.seReg x y) s = .next t ∧
      (s.reg x = s.reg y → t.pc = s.pc + 4) ∧ (s.reg x ≠ s.reg y → t.pc = s.pc + 2) ∧ OnlyPc s t) ∧
    (∃ t, exec (.sneReg x y) s = .next t ∧
      (s.reg x ≠ s.reg y → t.pc = s.pc + 4) ∧ (s.reg x = s.reg y → t.pc = s.pc + 2) ∧ OnlyPc s t)

/-- 42_skip R124, R125. -/
def Obligations.SkipsOnKeyState : Prop :=
  ∀ (x : Reg) (s : State),
    decodeWord (packXKK 0xE x 0x9E) = some (.skp x) ∧ decodeWord (packXKK 0xE x 0xA1) = some (.sknp x) ∧
    ((s.reg x).toNat ≤ 15 → ∃ t, exec (.skp x) s = .next t ∧ OnlyPc s t ∧
      (s.keys.getLsbD (s.reg x).toNat = true → t.pc = s.pc + 4) ∧
      (s.keys.getLsbD (s.reg x).toNat = false → t.pc = s.pc + 2)) ∧
    ((s.reg x).toNat ≤ 15 → ∃ t, exec (.sknp x) s = .next t ∧ OnlyPc s t ∧
      (s.keys.getLsbD (s.reg x).toNat = false → t.pc = s.pc + 4) ∧
      (s.keys.getLsbD (s.reg x).toNat = true → t.pc = s.pc + 2)) ∧
    (15 < (s.reg x).toNat →
      TakesFault (.skp x) s (.keyOutOfRange (s.reg x)) ∧ TakesFault (.sknp x) s (.keyOutOfRange (s.reg x)))

/-- 42_skip R126: of each pair exactly one skips. -/
def Obligations.SkipPairsAreComplements : Prop :=
  ∀ (i j : Instr) (s t u : State),
    ((∃ x nn, i = .seImm x nn ∧ j = .sneImm x nn) ∨ (∃ x y, i = .seReg x y ∧ j = .sneReg x y) ∨
      (∃ x, i = .skp x ∧ j = .sknp x ∧ (s.reg x).toNat ≤ 15)) →
    exec i s = .next t → exec j s = .next u →
    (t.pc = s.pc + 4 ∧ u.pc = s.pc + 2) ∨ (t.pc = s.pc + 2 ∧ u.pc = s.pc + 4)

/-- 43_load_arith R130, R139. -/
def Obligations.AssignAndSetImmediate : Prop :=
  ∀ (x y : Reg) (nn : Byte) (s : State),
    decodeWord (packXYN 0x8 x y 0x0) = some (.ldReg x y) ∧ decodeWord (packXKK 0x6 x nn.toNat) = some (.ldImm x nn) ∧
    (∃ t, exec (.ldReg x y) s = .next t ∧ t.reg x = s.reg y ∧ t.pc = s.pc + 2 ∧ OnlyReg s t x) ∧
    (∃ t, exec (.ldImm x nn) s = .next t ∧ t.reg x = nn ∧ t.pc = s.pc + 2 ∧ OnlyReg s t x)

/-- 43_load_arith R131, R132, R133, bit by bit; the flag register is untouched. -/
def Obligations.BitwiseOperationsLeaveTheFlag : Prop :=
  ∀ (x y : Reg) (s : State),
    decodeWord (packXYN 0x8 x y 0x1) = some (.orReg x y) ∧ decodeWord (packXYN 0x8 x y 0x2) = some (.andReg x y) ∧
    decodeWord (packXYN 0x8 x y 0x3) = some (.xorReg x y) ∧
    (∃ t, exec (.orReg x y) s = .next t ∧ t.pc = s.pc + 2 ∧ OnlyReg s t x ∧
      ∀ b, (t.reg x).getLsbD b = ((s.reg x).getLsbD b || (s.reg y).getLsbD b)) ∧
    (∃ t, exec (.andReg x y) s = .next t ∧ t.pc = s.pc + 2 ∧ OnlyReg s t x ∧
      ∀ b, (t.reg x).getLsbD b = ((s.reg x).getLsbD b && (s.reg y).getLsbD b)) ∧
    (∃ t, exec (.xorReg x y) s = .next t ∧ t.pc = s.pc + 2 ∧ OnlyReg s t x ∧
      ∀ b, (t.reg x).getLsbD b = ((s.reg x).getLsbD b).xor ((s.reg y).getLsbD b))

/-- 43_load_arith R134, on integers; with `x = 15` the flag is what stays. -/
def Obligations.AddSetsCarryLast : Prop :=
  ∀ (x y : Reg) (s : State), decodeWord (packXYN 0x8 x y 0x4) = some (.addReg x y) ∧
    ∃ t, exec (.addReg x y) s = .next t ∧ t.pc = s.pc + 2 ∧ OnlyRegFlag s t x ∧
      (x ≠ 15 → (t.reg x).toNat = ((s.reg x).toNat + (s.reg y).toNat) % 256) ∧
      (t.reg 15).toNat = if 255 < (s.reg x).toNat + (s.reg y).toNat then 1 else 0

/-- 43_load_arith R135, R137, on integers: strict comparison, so equal operands give flag 0. -/
def Obligations.SubtractsSetStrictlyGreaterLast : Prop :=
  ∀ (x y : Reg) (s : State),
    decodeWord (packXYN 0x8 x y 0x5) = some (.subReg x y) ∧ decodeWord (packXYN 0x8 x y 0x7) = some (.subnReg x y) ∧
    (∃ t, exec (.subReg x y) s = .next t ∧ t.pc = s.pc + 2 ∧ OnlyRegFlag s t x ∧
      (x ≠ 15 → ((t.reg x).toNat : Int) = (((s.reg x).toNat : Int) - (s.reg y).toNat) % 256) ∧
      (t.reg 15).toNat = if (s.reg y).toNat < (s.reg x).toNat then 1 else 0) ∧
    (∃ t, exec (.subnReg x y) s = .next t ∧ t.pc = s.pc + 2 ∧ OnlyRegFlag s t x ∧
      (x ≠ 15 → ((t.reg x).toNat : Int) = (((s.reg y).toNat : Int) - (s.reg x).toNat) % 256) ∧
      (t.reg 15).toNat = if (s.reg x).toNat < (s.reg y).toNat then 1 else 0)

/-- 43_load_arith R136, R138, on integers: one position, `y` without effect, the flag the bit shifted out. -/
def Obligations.ShiftsMoveOneBitIntoTheFlag : Prop :=
  ∀ (x y : Reg) (s : State),
    decodeWord (packXYN 0x8 x y 0x6) = some (.shr x y) ∧ decodeWord (packXYN 0x8 x y 0xE) = some (.shl x y) ∧
    (∃ t, exec (.shr x y) s = .next t ∧ t.pc = s.pc + 2 ∧ OnlyRegFlag s t x ∧
      (x ≠ 15 → (t.reg x).toNat = (s.reg x).toNat / 2) ∧ (t.reg 15).toNat = (s.reg x).toNat % 2) ∧
    (∃ t, exec (.shl x y) s = .next t ∧ t.pc = s.pc + 2 ∧ OnlyRegFlag s t x ∧
      (x ≠ 15 → (t.reg x).toNat = (s.reg x).toNat * 2 % 256) ∧ (t.reg 15).toNat = (s.reg x).toNat / 128)

/-- 43_load_arith R140, on integers: no flag, whatever the sum. -/
def Obligations.AddImmediateWritesNoFlag : Prop :=
  ∀ (x : Reg) (nn : Byte) (s : State), decodeWord (packXKK 0x7 x nn.toNat) = some (.addImm x nn) ∧
    ∃ t, exec (.addImm x nn) s = .next t ∧ t.pc = s.pc + 2 ∧ OnlyReg s t x ∧
      (t.reg x).toNat = ((s.reg x).toNat + nn.toNat) % 256

/-- 43_load_arith R141, R142 and 46_memory_ops R170, on integers: the three writers of the index register. -/
def Obligations.IndexRegisterWrites : Prop :=
  ∀ (x : Reg) (nnn : Addr12) (s : State),
    decodeWord (packNNN 0xA nnn) = some (.ldI nnn) ∧ decodeWord (packXKK 0xF x 0x1E) = some (.addI x) ∧
    decodeWord (packXKK 0xF x 0x29) = some (.ldF x) ∧
    (∃ t, exec (.ldI nnn) s = .next t ∧ t.I.toNat = nnn.toNat ∧ t.pc = s.pc + 2 ∧ OnlyIndex s t) ∧
    (∃ t, exec (.addI x) s = .next t ∧ t.I.toNat = (s.I.toNat + (s.reg x).toNat) % 65536 ∧ t.pc = s.pc + 2 ∧ OnlyIndex s t) ∧
    (∃ t, exec (.ldF x) s = .next t ∧ t.I.toNat = (s.reg x).toNat * 5 ∧ t.pc = s.pc + 2 ∧ OnlyIndex s t)

/-- 44_random R151 over the open functions: the generator advances once, and the byte is taken from its new state. -/
def Obligations.RandomMasksTheNextByte : Prop :=
  ∀ (x : Reg) (nn : Byte) (s : State), decodeWord (packXKK 0xC x nn.toNat) = some (.rnd x nn) ∧
    ∃ t, exec (.rnd x nn) s = .next t ∧ t.rng = Config.rngNext s.rng ∧ t.reg x = Config.rngByte t.rng &&& nn ∧
      t.pc = s.pc + 2 ∧ (∀ r, r ≠ x → t.reg r = s.reg r) ∧
      t = { s with rng := t.rng, V := t.V, pc := t.pc } ∧ SameMemory s t

/-- 44_random R153: after a seed, the masked values are a function of the seed and the masks alone. -/
def Obligations.MaskedBytesDependOnSeedAndMasksAlone : Prop :=
  ∀ (w : RngWord) (masks : List Byte) (s t : State),
    (s.hostSeed w).maskedBytes masks = (t.hostSeed w).maskedBytes masks

/-- 44_random R152, of the default functions: state 0 maps to 0 and no other state does. -/
def Obligations.DefaultGeneratorSendsOnlyZeroToZero : Prop :=
  defaultRngNext 1 = 0x00042021 ∧ defaultRngByte 0x00042021 = 0x21 ∧ ∀ w, defaultRngNext w = 0 ↔ w = 0

/-- 45_draw R161 with R162, R163: each cell that a set sprite pixel covers is flipped and no other, the flag says whether
one of them was on, and an address above 4095 faults before anything is drawn. -/
def Obligations.SpriteDrawFlipsCoveredCells : Prop :=
  ∀ (x y : Reg) (n : Nat) (s : State), n ≤ 15 →
    decodeWord (packXYN 0xD x y n) = some (.drw x y n) ∧
    (0 < n ∧ 4095 < s.I.toNat + n - 1 → TakesFault (.drw x y n) s (.memOutOfRange (max s.I.toNat 4096))) ∧
    (¬(0 < n ∧ 4095 < s.I.toNat + n - 1) → ∃ t, exec (.drw x y n) s = .next t ∧
      (∀ c, SpriteCovers s (s.reg x).toNat (s.reg y).toNat n c → Display.cell t.disp c = !Display.cell s.disp c) ∧
      (∀ c, ¬SpriteCovers s (s.reg x).toNat (s.reg y).toNat n c → Display.cell t.disp c = Display.cell s.disp c) ∧
      ((∃ c, SpriteCovers s (s.reg x).toNat (s.reg y).toNat n c ∧ Display.cell s.disp c = true) → t.reg 15 = 1) ∧
      (¬(∃ c, SpriteCovers s (s.reg x).toNat (s.reg y).toNat n c ∧ Display.cell s.disp c = true) → t.reg 15 = 0) ∧
      (∀ r, r ≠ 15 → t.reg r = s.reg r) ∧ t.dirty = true ∧ t.pc = s.pc + 2 ∧
      t = { s with V := t.V, disp := t.disp, dirty := t.dirty, pc := t.pc } ∧ SameMemory s t)

/-- What 45_draw R161 gives for R164's sprite drawn twice at the same place: the display is restored, and the second flag
says whether some covered cell was off at first (log 13). -/
def Obligations.DrawingTwiceRestoresTheDisplay : Prop :=
  ∀ (x y : Reg) (n : Nat) (s t u : State), n ≤ 15 → s.fault = none →
    exec (.drw x y n) s = .next t → t.fault = none → t.reg x = s.reg x → t.reg y = s.reg y →
    exec (.drw x y n) t = .next u →
    u.disp = s.disp ∧
    ((∃ c, SpriteCovers s (s.reg x).toNat (s.reg y).toNat n c ∧ Display.cell s.disp c = false) → u.reg 15 = 1) ∧
    (¬(∃ c, SpriteCovers s (s.reg x).toNat (s.reg y).toNat n c ∧ Display.cell s.disp c = false) → u.reg 15 = 0)

/-- 46_memory_ops R171, on integers: three digits, or a fault before any write. -/
def Obligations.BcdStoreWritesThreeDigits : Prop :=
  ∀ (x : Reg) (s : State), s.mem.wf = true →
    decodeWord (packXKK 0xF x 0x33) = some (.ldB x) ∧
    (4095 < s.I.toNat + 2 → TakesFault (.ldB x) s (.memOutOfRange (max s.I.toNat 4096))) ∧
    (s.I.toNat + 2 ≤ 4095 → ∃ t, exec (.ldB x) s = .next t ∧
      (t.mem.read s.I.toNat).toNat = (s.reg x).toNat / 100 ∧
      (t.mem.read (s.I.toNat + 1)).toNat = (s.reg x).toNat / 10 % 10 ∧
      (t.mem.read (s.I.toNat + 2)).toNat = (s.reg x).toNat % 10 ∧
      SameMemoryOutside s t s.I.toNat 3 ∧ t.pc = s.pc + 2 ∧ t = { s with mem := t.mem, pc := t.pc })

/-- 46_memory_ops R172: `V[0]` to `V[x]` to memory, or a fault before any write. -/
def Obligations.RegisterDumpStoresInOrder : Prop :=
  ∀ (x : Reg) (s : State), s.mem.wf = true →
    decodeWord (packXKK 0xF x 0x55) = some (.dump x) ∧
    (4095 < s.I.toNat + x.val → TakesFault (.dump x) s (.memOutOfRange (max s.I.toNat 4096))) ∧
    (s.I.toNat + x.val ≤ 4095 → ∃ t, exec (.dump x) s = .next t ∧
      (∀ k : Reg, k ≤ x → t.mem.read (s.I.toNat + k.val) = s.reg k) ∧
      SameMemoryOutside s t s.I.toNat (x.val + 1) ∧ t.pc = s.pc + 2 ∧ t = { s with mem := t.mem, pc := t.pc })

/-- 46_memory_ops R173: memory to `V[0]` to `V[x]`, or a fault before any write. -/
def Obligations.RegisterLoadReadsInOrder : Prop :=
  ∀ (x : Reg) (s : State),
    decodeWord (packXKK 0xF x 0x65) = some (.load x) ∧
    (4095 < s.I.toNat + x.val → TakesFault (.load x) s (.memOutOfRange (max s.I.toNat 4096))) ∧
    (s.I.toNat + x.val ≤ 4095 → ∃ t, exec (.load x) s = .next t ∧
      (∀ k : Reg, k ≤ x → t.reg k = s.mem.read (s.I.toNat + k.val)) ∧ (∀ k : Reg, x < k → t.reg k = s.reg k) ∧
      SameMemory s t ∧ t.pc = s.pc + 2 ∧ t = { s with V := t.V, pc := t.pc })

/-- 46_memory_ops R174: a dump, then any changes that keep `I` and the bytes dumped, then a load with the same `x`,
restores `V[0]` to `V[x]`. -/
def Obligations.DumpThenLoadRestoresRegisters : Prop :=
  ∀ (x : Reg) (s : State), s.mem.wf = true → s.I.toNat + x.val ≤ 4095 →
    ∃ t, exec (.dump x) s = .next t ∧
      ∀ t' : State, (∀ k : Reg, k ≤ x → t'.mem.read (s.I.toNat + k.val) = t.mem.read (s.I.toNat + k.val)) → t'.I = s.I →
        ∃ u, exec (.load x) t' = .next u ∧ ∀ k : Reg, k ≤ x → u.reg k = s.reg k

/-- 47_timer_key R180, R181, R183: the instruction's own effect, before the tick of its step. -/
def Obligations.TimerGetAndSet : Prop :=
  ∀ (x : Reg) (s : State),
    decodeWord (packXKK 0xF x 0x07) = some (.ldVxDT x) ∧ decodeWord (packXKK 0xF x 0x15) = some (.ldDTVx x) ∧
    decodeWord (packXKK 0xF x 0x18) = some (.ldSTVx x) ∧
    (∃ t, exec (.ldVxDT x) s = .next t ∧ t.reg x = s.DT ∧ t.pc = s.pc + 2 ∧ OnlyReg s t x) ∧
    (∃ t, exec (.ldDTVx x) s = .next t ∧ t.DT = s.reg x ∧ t.pc = s.pc + 2 ∧ t = { s with DT := t.DT, pc := t.pc } ∧
      SameMemory s t) ∧
    (∃ t, exec (.ldSTVx x) s = .next t ∧ t.ST = s.reg x ∧ t.pc = s.pc + 2 ∧ t = { s with ST := t.ST, pc := t.pc } ∧
      SameMemory s t)

/-- 47_timer_key R182 on one sample: the least key that is down ends the wait; with none the step stays held, in the MODEL's
field `waiting` (log 3), and nothing else changes. -/
def Obligations.KeyWaitTakesTheLeastKeyDown : Prop :=
  ∀ (x : Reg) (s : State), decodeWord (packXKK 0xF x 0x0A) = some (.ldVxK x) ∧
    (∀ k < 16, s.keys.getLsbD k = true → (∀ j < k, s.keys.getLsbD j = false) →
      ∃ t, exec (.ldVxK x) s = .next t ∧ (t.reg x).toNat = k ∧ t.pc = s.pc + 2 ∧ t.waiting = false ∧
        (∀ r, r ≠ x → t.reg r = s.reg r) ∧ t = { s with V := t.V, pc := t.pc, waiting := t.waiting } ∧ SameMemory s t) ∧
    (s.keys = 0 → exec (.ldVxK x) s = .next { s with waiting := true })

/-- 40_step_cycle R99, 47_timer_key R182, 70_reset_and_hazards R237, as a run: while the samples show no key the step is
held and nothing but the polling moves; the first sample with a key ends it, and the timers tick once for the whole wait.
The wait as stuttering steps is the MODEL's (log 3), as are the answers (log 2) and the record of the ports (log 4). -/
def Obligations.KeyWaitEndsAtTheFirstSampleWithAKey : Prop :=
  ∀ (x : Reg) (s : State) (k j : Nat) (ks : Keys) (rest : List Keys), s.CanFetch →
    decodeWord s.fetchWord = some (.ldVxK x) → s.port.samples = List.replicate k 0 ++ ks :: rest →
    j < 16 → ks.getLsbD j = true → (∀ m < j, ks.getLsbD m = false) →
    (∀ m, 0 < m → m ≤ k → ∃ t, Host.Core.run Sys2Proof.core m s = Host.Outcome.next t ∧ t.waiting = true ∧
      t = { s with keys := 0, lastOpcode := s.fetchWord, waiting := true, port := t.port }) ∧
    ∃ t, Host.Core.run Sys2Proof.core (k + 1) s = Host.Outcome.next t ∧ t.waiting = false ∧
      (t.reg x).toNat = j ∧ (∀ r, r ≠ x → t.reg r = s.reg r) ∧ t.pc = s.pc + 2 ∧
      t.DT.toNat = s.DT.toNat - 1 ∧ t.ST.toNat = s.ST.toNat - 1 ∧ t.keys = ks ∧ t.lastOpcode = s.fetchWord ∧
      t.port.samples = rest ∧ t.port.sampleNo = s.port.sampleNo + (k + 1) ∧
      t.port.events = Event.returned true :: (beeps s.ST ++ (List.replicate (k + 1) Event.keySample ++ s.port.events)) ∧
      t = { s with V := t.V, pc := t.pc, DT := t.DT, ST := t.ST, keys := t.keys, lastOpcode := t.lastOpcode,
                   waiting := t.waiting, port := t.port } ∧ SameMemory s t

/-- The access rights of 10_state R35, with R25, R29, R30 and R33, over all instructions: which instruction may write
which element. The MODEL's own fields are `port` (log 2, log 4) and `waiting` (log 3). -/
def Obligations.EachElementHasOnlyItsWriters : Prop :=
  ∀ (i : Instr) (s t : State), exec i s = .next t →
    t.keys = s.keys ∧ t.lastOpcode = s.lastOpcode ∧ t.port = s.port ∧ (s.dirty = true → t.dirty = true) ∧
    ((∀ x, i ≠ .ldDTVx x) → t.DT = s.DT) ∧ ((∀ x, i ≠ .ldSTVx x) → t.ST = s.ST) ∧
    ((∀ x nn, i ≠ .rnd x nn) → t.rng = s.rng) ∧
    (i ≠ .ret → (∀ nnn, i ≠ .call nnn) → t.stack = s.stack ∧ t.sp = s.sp) ∧
    (i ≠ .cls → (∀ x y n, i ≠ .drw x y n) → t.disp = s.disp ∧ t.dirty = s.dirty) ∧
    ((∀ x, i ≠ .ldB x) → (∀ x, i ≠ .dump x) → SameMemory s t) ∧
    ((∀ nnn, i ≠ .ldI nnn) → (∀ x, i ≠ .addI x) → (∀ x, i ≠ .ldF x) → t.I = s.I) ∧
    ((∀ x, i ≠ .ldVxK x) → t.waiting = s.waiting)

/-- 10_state R22 and R38: the six flag-writing instructions leave `VF` 0 or 1, and no other instruction writes it unless
it is a destination register. -/
def Obligations.FlagRegisterHasSixSideEffectWriters : Prop :=
  ∀ (i : Instr) (s t : State), s.fault = none → exec i s = .next t → t.fault = none →
    (((∃ x y, i = .addReg x y ∨ i = .subReg x y ∨ i = .subnReg x y ∨ i = .shr x y ∨ i = .shl x y) ∨
        (∃ x y n, i = .drw x y n)) → t.reg 15 = 0 ∨ t.reg 15 = 1) ∧
    (¬((∃ x y, i = .addReg x y ∨ i = .subReg x y ∨ i = .subnReg x y ∨ i = .shr x y ∨ i = .shl x y) ∨
        (∃ x y n, i = .drw x y n)) →
      (∀ y nn, i ≠ .ldReg 15 y ∧ i ≠ .orReg 15 y ∧ i ≠ .andReg 15 y ∧ i ≠ .xorReg 15 y ∧ i ≠ .ldImm 15 nn ∧
        i ≠ .addImm 15 nn ∧ i ≠ .rnd 15 nn ∧ i ≠ .ldVxDT 15 ∧ i ≠ .ldVxK 15 ∧ i ≠ .load 15) →
      t.reg 15 = s.reg 15)

/-- No instruction reads `last_opcode` (10_state R32), and only RND reads the generator (R33): what an instruction does is
the same whatever they hold. -/
def Obligations.LatchAndGeneratorDoNotInfluenceOtherInstructions : Prop :=
  ∀ (i : Instr) (s t : State) (op : Word) (w : RngWord), exec i s = .next t →
    exec i { s with lastOpcode := op } = .next { t with lastOpcode := op } ∧
    ((∀ x nn, i ≠ .rnd x nn) → exec i { s with rng := w } = .next { t with rng := w })

/-- 20_memory R62: a register dump into the bytes of the next instruction is what the next step fetches. -/
def Obligations.StoreIsSeenByTheNextFetch : Prop :=
  ∀ (s : State) (x : Reg), s.CanFetch → s.mem.wf = true → decodeWord s.fetchWord = some (.dump x) → 1 ≤ x.val →
    s.I = s.pc + 2 → s.I.toNat + x.val ≤ 4095 →
    ∃ t, step s = .next t ∧ t.fault = none ∧ t.pc = s.I ∧ t.fetchWord = wordOfBytes (s.reg 0) (s.reg 1)

/-- 48_host_operations R190: `Reset` gives the reset state, of a faulted or waiting machine too; the MODEL's
record of the ports, the host's own side, stays (log 9). -/
def Obligations.HostResetGivesTheResetState : Prop :=
  ∀ s : State, ∃ t, applyHost .reset s = .next t ∧ t = { State.reset with port := s.port } ∧ t.fault = none

/-- 48_host_operations R191, R192, between steps: the bytes verbatim from the origin the host gives, or from 512 when it
gives none, and nothing else; or `LoadSize` and nothing else. -/
def Obligations.HostLoadPlacesBytesVerbatim : Prop :=
  ∀ (bytes : List Byte) (given : Option Nat) (origin : Nat) (s : State),
    given = some origin ∨ (given = none ∧ origin = 512) → s.mem.wf = true → s.waiting = false →
    (origin ≤ 4096 ∧ bytes.length ≤ 4096 - origin → ∃ t, applyHost (.load bytes given) s = .next t ∧
      (∀ k (h : k < bytes.length), t.mem.read (origin + k) = bytes[k]) ∧
      SameMemoryOutside s t origin bytes.length ∧ t = { s with mem := t.mem }) ∧
    (¬(origin ≤ 4096 ∧ bytes.length ≤ 4096 - origin) →
      applyHost (.load bytes given) s = .next { s with fault := some .loadSize })

/-- 48_host_operations R193, R195, R196, between steps: one element each. -/
def Obligations.HostSeedKeysAndDirtyWriteOneElement : Prop :=
  ∀ (s : State) (w : RngWord) (ks : Keys), s.waiting = false →
    applyHost (.seed w) s = .next { s with rng := w } ∧ applyHost (.writeKeys ks) s = .next { s with keys := ks } ∧
    applyHost .clearDirty s = .next { s with dirty := false }

/-- While a step is held in a key wait the host must not apply an operation between steps (48_host_operations R203): the
MODEL refuses it by name, and `Reset` alone ends the wait (log 9). -/
def Obligations.OnlyResetIsAppliedInsideAKeyWait : Prop :=
  ∀ (op : HostOp) (s : State), s.waiting = true → op ≠ .step →
    (op ≠ .reset → applyHost op s = .refused .stepInProgress) ∧
    (op = .reset → ∃ t, applyHost op s = .next t ∧ t.waiting = false)
end

