-- ==== Sys2Proof/Laws/Decode.lean ====
section
/-! SUPPORT. The fields of a packed word (30_encoding R71, R72), and the two bytes of a word (20_memory R52). -/

namespace Sys2Proof

/-- A slice of a word given by a number that fits. -/
theorem slice_ofNat {w : Nat} (h : w < 65536) (lo k : Nat) : slice (BitVec.ofNat 16 w) lo k = w / 2 ^ lo % 2 ^ k := by
  rw [slice, BitVec.toNat_ofNat, Nat.mod_eq_of_lt (show w < 2 ^ 16 by omega)]

section
variable {t n kk : Nat} (x y : Reg) (nnn : Addr12)

theorem fieldT_packXYN (ht : t < 16) (hn : n < 16) : fieldT (packXYN t x y n) = t := by
  rw [fieldT, packXYN, slice_ofNat (by omega)]
  omega

theorem fieldX_packXYN (ht : t < 16) (hn : n < 16) : fieldX (packXYN t x y n) = x := by
  apply Fin.ext
  simp only [fieldX]
  rw [packXYN, slice_ofNat (by omega)]
  omega

theorem fieldY_packXYN (ht : t < 16) (hn : n < 16) : fieldY (packXYN t x y n) = y := by
  apply Fin.ext
  simp only [fieldY]
  rw [packXYN, slice_ofNat (by omega)]
  omega

theorem fieldN_packXYN (ht : t < 16) (hn : n < 16) : fieldN (packXYN t x y n) = n := by
  rw [fieldN, packXYN, slice_ofNat (by omega)]
  omega

theorem fieldT_packXKK (ht : t < 16) (hk : kk < 256) : fieldT (packXKK t x kk) = t := by
  rw [fieldT, packXKK, slice_ofNat (by omega)]
  omega

theorem fieldX_packXKK (ht : t < 16) (hk : kk < 256) : fieldX (packXKK t x kk) = x := by
  apply Fin.ext
  simp only [fieldX]
  rw [packXKK, slice_ofNat (by omega)]
  omega

theorem slice_packXKK (ht : t < 16) (hk : kk < 256) : slice (packXKK t x kk) 0 8 = kk := by
  rw [packXKK, slice_ofNat (by omega)]
  omega

theorem fieldT_packXNN (ht : t < 16) (nn : Byte) : fieldT (packXKK t x nn.toNat) = t := fieldT_packXKK x ht nn.isLt

theorem fieldX_packXNN (ht : t < 16) (nn : Byte) : fieldX (packXKK t x nn.toNat) = x := fieldX_packXKK x ht nn.isLt

theorem fieldNN_packXNN (ht : t < 16) (nn : Byte) : fieldNN (packXKK t x nn.toNat) = nn := by
  rw [fieldNN, slice_packXKK x ht nn.isLt, BitVec.ofNat_toNat, BitVec.setWidth_eq]

theorem fieldT_packNNN (ht : t < 16) : fieldT (packNNN t nnn) = t := by
  rw [fieldT, packNNN, slice_ofNat (by omega)]
  omega

theorem fieldNNN_packNNN (ht : t < 16) : fieldNNN (packNNN t nnn) = nnn := by
  apply BitVec.eq_of_toNat_eq
  rw [fieldNNN, packNNN, slice_ofNat (by omega), BitVec.toNat_ofNat]
  omega

end

/-- The words' masks read the fields (30_encoding R71, R74). -/
theorem and_F000 (op : Word) : (op &&& (0xF000 : Word)).toNat = fieldT op * 4096 := by
  have h : op &&& (0xF000 : Word) = (op >>> 12) <<< 12 := by
    apply BitVec.eq_of_getLsbD_eq
    intro i hi
    interval_cases i <;> simp
  rw [h, BitVec.toNat_shiftLeft, BitVec.toNat_ushiftRight, Nat.shiftLeft_eq, Nat.shiftRight_eq_div_pow]
  simp only [fieldT, slice]
  omega

theorem and_low (op : Word) (k : Nat) (hk : k ≤ 12) :
    (op &&& ((0xF000 : Word) ||| BitVec.ofNat 16 (2 ^ k - 1))).toNat = fieldT op * 4096 + slice op 0 k := by
  have hs : slice op 0 k < 2 ^ 12 := lt_of_lt_of_le (Nat.mod_lt _ (by positivity)) (Nat.pow_le_pow_right (by decide) hk)
  have h2 : 2 ^ k - 1 < 2 ^ 16 := by have := Nat.pow_le_pow_right (n := 2) (by decide) hk; omega
  have hd : op &&& ((0xF000 : Word) ||| BitVec.ofNat 16 (2 ^ k - 1)) =
      (op &&& (0xF000 : Word)) ||| (op &&& BitVec.ofNat 16 (2 ^ k - 1)) := by
    apply BitVec.eq_of_getLsbD_eq
    intro i hi
    simp only [BitVec.getLsbD_and, BitVec.getLsbD_or, Bool.and_or_distrib_left]
  rw [hd, BitVec.toNat_or, and_F000, BitVec.toNat_and, BitVec.toNat_ofNat, Nat.mod_eq_of_lt h2,
    Nat.and_two_pow_sub_one_eq_mod]
  have h3 := Nat.two_pow_add_eq_or_of_lt hs (fieldT op)
  simp only [slice, Nat.pow_zero, Nat.div_one, Nat.mul_comm (2 ^ 12)] at h3 ⊢
  exact h3.symm

theorem and_F00F (op : Word) : (op &&& (0xF00F : Word)).toNat = fieldT op * 4096 + fieldN op := and_low op 4 (by decide)

theorem and_F0FF (op : Word) : (op &&& (0xF0FF : Word)).toNat = fieldT op * 4096 + slice op 0 8 := and_low op 8 (by decide)

theorem and_FFFF (op : Word) : (op &&& (0xFFFF : Word)).toNat = op.toNat :=
  congrArg BitVec.toNat (BitVec.and_allOnes (x := op))

/-- A word is its two bytes, big-endian. -/
@[simp] theorem wordOfBytes_hi_lo (w : Word) : wordOfBytes (hiByte w) (loByte w) = w := by
  apply BitVec.eq_of_toNat_eq
  simp only [wordOfBytes, hiByte, loByte, BitVec.toNat_ofNat]
  omega

theorem wordOfBytes_toNat (hi lo : Byte) : (wordOfBytes hi lo).toNat = hi.toNat * 256 + lo.toNat := by
  simp only [wordOfBytes, BitVec.toNat_ofNat]
  omega

/-- What the byte decoder gives is what the word decoder gives. -/
theorem decode_cons (hi lo : Byte) (rest : List Byte) :
    decode (hi :: lo :: rest) = match decodeWord (wordOfBytes hi lo) with
      | some i => .instr i rest
      | none => .rejected (.unrecognised (wordOfBytes hi lo)) := rfl

theorem decode_eq_instr {hi lo : Byte} {rest : List Byte} {i : Instr} :
    decode (hi :: lo :: rest) = .instr i rest ↔ decodeWord (wordOfBytes hi lo) = some i := by
  rw [decode_cons]
  cases h : decodeWord (wordOfBytes hi lo) <;> simp

end Sys2Proof
end

