-- ==== Sys2Proof/Laws/Draw.lean ====
section
/-! SUPPORT. The display: what flipping a cell does to each cell, and what one sprite pixel does (45_draw R161, R162). -/

namespace Sys2Proof.Machine

/-- A cell after another, or the same, cell is flipped. -/
theorem Display.cell_flip (d : Display) (c e : Cell) :
    Display.cell (Display.flip d c) e = if e = c then !Display.cell d e else Display.cell d e := by
  unfold Display.cell Display.flip
  rw [Vector.getElem_set]
  by_cases hr : c.val / 64 = e.val / 64
  · have hc : e.val % 64 < 64 := by omega
    simp only [hr, ↓reduceIte, BitVec.getLsbD_xor, BitVec.getLsbD_twoPow, Fin.ext_iff]
    by_cases he : e.val = c.val
    · simp [he, show c.val % 64 < 64 by omega]
    · rw [if_neg he, decide_eq_false (p := c.val % 64 = e.val % 64) (by omega)]
      simp
  · rw [if_neg hr, if_neg (by rw [Fin.ext_iff]; omega)]

/-- No cell of the blank display is on. -/
@[simp] theorem Display.cell_blank (c : Cell) : Display.cell Display.blank c = false := by
  simp [Display.cell, Display.blank]

/-- Displays with equal cells are equal. -/
theorem Display.ext_cell {d e : Display} (h : ∀ c, Display.cell d c = Display.cell e c) : d = e := by
  apply Vector.ext
  intro i hi
  apply BitVec.eq_of_getLsbD_eq
  intro j hj
  have := h ⟨i * 64 + j, by omega⟩
  simpa only [Display.cell, show (i * 64 + j) / 64 = i by omega, show (i * 64 + j) % 64 = j by omega] using this

/-- What one sprite pixel does: a set pixel flips its cell and hits when the cell was on; another does nothing. -/
theorem Canvas.pixel_spec (k : Canvas) (on : Bool) (c e : Cell) :
    Display.cell (k.pixel on c).disp e = (Display.cell k.disp e).xor (on && decide (e = c)) ∧
    (k.pixel on c).hit = (k.hit || (on && Display.cell k.disp c)) := by
  cases on with
  | false => simp [Canvas.pixel]
  | true =>
    simp only [Canvas.pixel, ↓reduceIte, Display.cell_flip, Bool.true_and]
    by_cases h : e = c <;> simp [h]

/-- What a list of sprite pixels on different cells does: the set ones flip their cells, and one hits when its cell was on
at the start (45_draw R161, R162). -/
theorem Canvas.pixels_spec (L : List (Bool × Cell)) (hd : L.Pairwise (fun p q => p.2 ≠ q.2)) (k : Canvas) :
    (∀ e, Display.cell (L.foldl (fun k p => k.pixel p.1 p.2) k).disp e =
      (Display.cell k.disp e).xor (decide ((true, e) ∈ L))) ∧
    (L.foldl (fun k p => k.pixel p.1 p.2) k).hit = (k.hit || L.any (fun p => p.1 && Display.cell k.disp p.2)) := by
  induction L generalizing k with
  | nil => simp
  | cons p L ih =>
    obtain ⟨on, c⟩ := p
    rw [List.pairwise_cons] at hd
    obtain ⟨h1, h2⟩ := ih hd.2 (k.pixel on c)
    simp only [List.foldl_cons]
    constructor
    · intro e
      rw [h1, (Canvas.pixel_spec k on c e).1]
      by_cases he : e = c
      · subst he
        have : (true, e) ∉ L := fun h => hd.1 _ h rfl
        cases on <;> simp [this]
      · simp [he]
    · have ha : L.any (fun p => p.1 && Display.cell (k.pixel on c).disp p.2) =
          L.any (fun p => p.1 && Display.cell k.disp p.2) := by
        rw [Bool.eq_iff_iff]
        simp only [List.any_eq_true, Bool.and_eq_true]
        refine exists_congr fun p => and_congr_right fun hp => and_congr_right fun _ => ?_
        rw [(Canvas.pixel_spec k on c p.2).1, decide_eq_false (fun h => hd.1 _ hp h.symm)]
        simp
      rw [h2, (Canvas.pixel_spec k on c c).2, ha]
      simp [Bool.or_assoc]

/-- A sprite as the list of its pixels, row by row (45_draw R161). -/
def spritePixels (m : Memory) (base x0 y0 n : Nat) : List (Bool × Cell) :=
  (List.range n).flatMap fun r => (List.range 8).map fun c => (pixelOn (m.read (base + r)) c, cellAt (x0 + c) (y0 + r))

/-- Drawing a sprite is drawing the list of its pixels. -/
theorem Canvas.sprite_eq (k : Canvas) (m : Memory) (base x0 y0 n : Nat) :
    k.sprite m base x0 y0 n = (spritePixels m base x0 y0 n).foldl (fun k p => k.pixel p.1 p.2) k := by
  unfold Canvas.sprite spritePixels Canvas.row
  generalize List.range n = rows
  induction rows generalizing k with
  | nil => rfl
  | cons r rows ih => rw [List.foldl_cons, ih, List.flatMap_cons, List.foldl_append, List.foldl_map]

end Sys2Proof.Machine
end

