-- ==== Sys2Proof/Laws/Memory.lean ====
section
/-! SUPPORT. Memory: every operation keeps the canonical form, a read after a write gives the byte written, and every
other address reads as before (20_memory R54). -/

namespace Sys2Proof.Machine

theorem Memory.wfFrom_cons {lo k : Nat} {b : Byte} {rest : Memory} :
    Memory.wfFrom lo ((k, b) :: rest) = true ↔
      lo ≤ k ∧ k < 4096 ∧ b ≠ initialByte k ∧ Memory.wfFrom (k + 1) rest = true := by
  simp only [Memory.wfFrom, Bool.and_eq_true, decide_eq_true_eq, and_assoc]
  rfl

/-- A canonical list from `lo` up is one from any lower address up. -/
theorem Memory.wfFrom_mono {lo lo' : Nat} (h : lo' ≤ lo) {m : Memory} (hm : Memory.wfFrom lo m = true) :
    Memory.wfFrom lo' m = true := by
  cases m with
  | nil => rfl
  | cons p rest =>
    obtain ⟨k, b⟩ := p
    rw [Memory.wfFrom_cons] at hm ⊢
    exact ⟨h.trans hm.1, hm.2⟩

/-- Below the first listed address memory reads as after reset. -/
theorem Memory.read_below {lo a : Nat} {m : Memory} (hm : Memory.wfFrom lo m = true) (h : a < lo) :
    Memory.read m a = initialByte a := by
  cases m with
  | nil => rfl
  | cons p rest =>
    obtain ⟨k, b⟩ := p
    rw [Memory.wfFrom_cons] at hm
    simp [Memory.read, show a < k by omega]

theorem Memory.entry_wf {lo a : Nat} {b : Byte} {rest : Memory} (hlo : lo ≤ a) (ha : a < 4096)
    (hr : Memory.wfFrom (a + 1) rest = true) : Memory.wfFrom lo (Memory.entry a b rest) = true := by
  unfold Memory.entry
  split
  · exact Memory.wfFrom_mono (by omega) hr
  · next hb => exact Memory.wfFrom_cons.2 ⟨hlo, ha, hb, hr⟩

theorem Memory.entry_read {a c : Nat} {b : Byte} {rest : Memory} (hr : Memory.wfFrom (a + 1) rest = true) :
    Memory.read (Memory.entry a b rest) c = if c = a then b else Memory.read rest c := by
  unfold Memory.entry
  split
  · next hb =>
    split
    · next hc => rw [hc, Memory.read_below hr (by omega), hb]
    · rfl
  · next hb =>
    simp only [Memory.read]
    split
    · next hc => rw [if_neg (by omega), Memory.read_below hr (by omega)]
    · rfl

theorem Memory.write_wfFrom {lo a : Nat} {b : Byte} {m : Memory} (hlo : lo ≤ a) (ha : a < 4096)
    (hm : Memory.wfFrom lo m = true) : Memory.wfFrom lo (Memory.write m a b) = true := by
  induction m generalizing lo with
  | nil => exact Memory.entry_wf hlo ha rfl
  | cons p rest ih =>
    obtain ⟨k, c⟩ := p
    obtain ⟨h1, h2, h3, h4⟩ := Memory.wfFrom_cons.1 hm
    simp only [Memory.write]
    split
    · exact Memory.entry_wf hlo ha (Memory.wfFrom_cons.2 ⟨by omega, h2, h3, h4⟩)
    · split
      · next h => exact Memory.entry_wf hlo ha (h ▸ h4)
      · exact Memory.wfFrom_cons.2 ⟨h1, h2, h3, ih (by omega) h4⟩

theorem Memory.read_write_from {lo a c : Nat} {b : Byte} {m : Memory} (hm : Memory.wfFrom lo m = true) :
    Memory.read (Memory.write m a b) c = if c = a then b else Memory.read m c := by
  induction m generalizing lo with
  | nil => exact Memory.entry_read rfl
  | cons p rest ih =>
    obtain ⟨k, d⟩ := p
    obtain ⟨h1, h2, h3, h4⟩ := Memory.wfFrom_cons.1 hm
    simp only [Memory.write]
    split
    · exact Memory.entry_read (Memory.wfFrom_cons.2 ⟨by omega, h2, h3, h4⟩)
    · split
      · next h =>
        subst h
        rw [Memory.entry_read h4]
        split
        · rfl
        · next hc =>
          simp only [Memory.read, if_neg hc]
          split
          · rw [Memory.read_below h4 (by omega)]
          · rfl
      · simp only [Memory.read, ih h4]
        split
        · rw [if_neg (by omega)]
        · split
          · rw [if_neg (by omega)]
          · rfl

/-- Storing a byte keeps the canonical form. -/
theorem Memory.write_wf {a : Nat} {b : Byte} {m : Memory} (ha : a < 4096) (hm : m.wf = true) :
    (m.write a b).wf = true := Memory.write_wfFrom (Nat.zero_le _) ha hm

/-- One byte of memory after one store: the byte stored at its address, every other as before. -/
theorem Memory.read_write {a c : Nat} {b : Byte} {m : Memory} (hm : m.wf = true) :
    (m.write a b).read c = if c = a then b else m.read c := Memory.read_write_from hm

/-- Storing a block of bytes keeps the canonical form. -/
theorem Memory.writeBytes_wf {a : Nat} {bs : List Byte} {m : Memory} (ha : a + bs.length ≤ 4096) (hm : m.wf = true) :
    (m.writeBytes a bs).wf = true := by
  induction bs generalizing m a with
  | nil => exact hm
  | cons b bs ih =>
    simp only [List.length_cons] at ha
    exact ih (by omega) (Memory.write_wf (by omega) hm)

/-- One byte of memory after a block is stored: byte `c - a` of the block inside it, every other as before. -/
theorem Memory.read_writeBytes {a c : Nat} {bs : List Byte} {m : Memory} (ha : a + bs.length ≤ 4096)
    (hm : m.wf = true) :
    (m.writeBytes a bs).read c = if h : a ≤ c ∧ c < a + bs.length then bs[c - a]'(by omega) else m.read c := by
  induction bs generalizing m a with
  | nil =>
    rw [dif_neg (by simp)]
    rfl
  | cons b bs ih =>
    simp only [List.length_cons] at ha
    rw [Memory.writeBytes, ih (by omega) (Memory.write_wf (by omega) hm), Memory.read_write hm]
    rcases Nat.lt_trichotomy c a with h | h | h
    · rw [dif_neg (by omega), dif_neg (by simp; omega), if_neg (by omega)]
    · subst h
      rw [dif_neg (by omega), if_pos rfl, dif_pos (by simp)]
      simp
    · by_cases h2 : c < a + 1 + bs.length
      · rw [dif_pos ⟨by omega, h2⟩, dif_pos ⟨by omega, by simp; omega⟩]
        rw [List.getElem_cons, dif_neg (by omega)]
        congr 1
      · rw [dif_neg (by omega), dif_neg (by simp; omega), if_neg (by omega)]

/-- Memory lists nothing after reset and is canonical. -/
theorem Memory.reset_wf : State.reset.mem.wf = true := rfl

end Sys2Proof.Machine
end

