-- ==== Sys2Proof/Laws/State.lean ====
section
/-! SUPPORT. One lemma for each field under each update of the state, true by rfl and tagged @[simp], so that no later
proof unfolds a record update; then the register and slot reads under each update. -/

namespace Sys2Proof.Machine

variable (s : State)

@[simp] theorem State.setReg_mem (x : Reg) (b : Byte) : (s.setReg x b).mem = s.mem := rfl
@[simp] theorem State.setReg_V (x : Reg) (b : Byte) : (s.setReg x b).V = s.V.set x.val b := rfl
@[simp] theorem State.setReg_I (x : Reg) (b : Byte) : (s.setReg x b).I = s.I := rfl
@[simp] theorem State.setReg_pc (x : Reg) (b : Byte) : (s.setReg x b).pc = s.pc := rfl
@[simp] theorem State.setReg_stack (x : Reg) (b : Byte) : (s.setReg x b).stack = s.stack := rfl
@[simp] theorem State.setReg_sp (x : Reg) (b : Byte) : (s.setReg x b).sp = s.sp := rfl
@[simp] theorem State.setReg_DT (x : Reg) (b : Byte) : (s.setReg x b).DT = s.DT := rfl
@[simp] theorem State.setReg_ST (x : Reg) (b : Byte) : (s.setReg x b).ST = s.ST := rfl
@[simp] theorem State.setReg_disp (x : Reg) (b : Byte) : (s.setReg x b).disp = s.disp := rfl
@[simp] theorem State.setReg_dirty (x : Reg) (b : Byte) : (s.setReg x b).dirty = s.dirty := rfl
@[simp] theorem State.setReg_keys (x : Reg) (b : Byte) : (s.setReg x b).keys = s.keys := rfl
@[simp] theorem State.setReg_lastOpcode (x : Reg) (b : Byte) : (s.setReg x b).lastOpcode = s.lastOpcode := rfl
@[simp] theorem State.setReg_rng (x : Reg) (b : Byte) : (s.setReg x b).rng = s.rng := rfl
@[simp] theorem State.setReg_fault (x : Reg) (b : Byte) : (s.setReg x b).fault = s.fault := rfl
@[simp] theorem State.setReg_waiting (x : Reg) (b : Byte) : (s.setReg x b).waiting = s.waiting := rfl
@[simp] theorem State.setReg_port (x : Reg) (b : Byte) : (s.setReg x b).port = s.port := rfl

@[simp] theorem State.setV_mem (v : Vector Byte 16) : (s.setV v).mem = s.mem := rfl
@[simp] theorem State.setV_V (v : Vector Byte 16) : (s.setV v).V = v := rfl
@[simp] theorem State.setV_I (v : Vector Byte 16) : (s.setV v).I = s.I := rfl
@[simp] theorem State.setV_pc (v : Vector Byte 16) : (s.setV v).pc = s.pc := rfl
@[simp] theorem State.setV_stack (v : Vector Byte 16) : (s.setV v).stack = s.stack := rfl
@[simp] theorem State.setV_sp (v : Vector Byte 16) : (s.setV v).sp = s.sp := rfl
@[simp] theorem State.setV_DT (v : Vector Byte 16) : (s.setV v).DT = s.DT := rfl
@[simp] theorem State.setV_ST (v : Vector Byte 16) : (s.setV v).ST = s.ST := rfl
@[simp] theorem State.setV_disp (v : Vector Byte 16) : (s.setV v).disp = s.disp := rfl
@[simp] theorem State.setV_dirty (v : Vector Byte 16) : (s.setV v).dirty = s.dirty := rfl
@[simp] theorem State.setV_keys (v : Vector Byte 16) : (s.setV v).keys = s.keys := rfl
@[simp] theorem State.setV_lastOpcode (v : Vector Byte 16) : (s.setV v).lastOpcode = s.lastOpcode := rfl
@[simp] theorem State.setV_rng (v : Vector Byte 16) : (s.setV v).rng = s.rng := rfl
@[simp] theorem State.setV_fault (v : Vector Byte 16) : (s.setV v).fault = s.fault := rfl
@[simp] theorem State.setV_waiting (v : Vector Byte 16) : (s.setV v).waiting = s.waiting := rfl
@[simp] theorem State.setV_port (v : Vector Byte 16) : (s.setV v).port = s.port := rfl

@[simp] theorem State.setI_mem (w : Word) : (s.setI w).mem = s.mem := rfl
@[simp] theorem State.setI_V (w : Word) : (s.setI w).V = s.V := rfl
@[simp] theorem State.setI_I (w : Word) : (s.setI w).I = w := rfl
@[simp] theorem State.setI_pc (w : Word) : (s.setI w).pc = s.pc := rfl
@[simp] theorem State.setI_stack (w : Word) : (s.setI w).stack = s.stack := rfl
@[simp] theorem State.setI_sp (w : Word) : (s.setI w).sp = s.sp := rfl
@[simp] theorem State.setI_DT (w : Word) : (s.setI w).DT = s.DT := rfl
@[simp] theorem State.setI_ST (w : Word) : (s.setI w).ST = s.ST := rfl
@[simp] theorem State.setI_disp (w : Word) : (s.setI w).disp = s.disp := rfl
@[simp] theorem State.setI_dirty (w : Word) : (s.setI w).dirty = s.dirty := rfl
@[simp] theorem State.setI_keys (w : Word) : (s.setI w).keys = s.keys := rfl
@[simp] theorem State.setI_lastOpcode (w : Word) : (s.setI w).lastOpcode = s.lastOpcode := rfl
@[simp] theorem State.setI_rng (w : Word) : (s.setI w).rng = s.rng := rfl
@[simp] theorem State.setI_fault (w : Word) : (s.setI w).fault = s.fault := rfl
@[simp] theorem State.setI_waiting (w : Word) : (s.setI w).waiting = s.waiting := rfl
@[simp] theorem State.setI_port (w : Word) : (s.setI w).port = s.port := rfl

@[simp] theorem State.setPc_mem (w : Word) : (s.setPc w).mem = s.mem := rfl
@[simp] theorem State.setPc_V (w : Word) : (s.setPc w).V = s.V := rfl
@[simp] theorem State.setPc_I (w : Word) : (s.setPc w).I = s.I := rfl
@[simp] theorem State.setPc_pc (w : Word) : (s.setPc w).pc = w := rfl
@[simp] theorem State.setPc_stack (w : Word) : (s.setPc w).stack = s.stack := rfl
@[simp] theorem State.setPc_sp (w : Word) : (s.setPc w).sp = s.sp := rfl
@[simp] theorem State.setPc_DT (w : Word) : (s.setPc w).DT = s.DT := rfl
@[simp] theorem State.setPc_ST (w : Word) : (s.setPc w).ST = s.ST := rfl
@[simp] theorem State.setPc_disp (w : Word) : (s.setPc w).disp = s.disp := rfl
@[simp] theorem State.setPc_dirty (w : Word) : (s.setPc w).dirty = s.dirty := rfl
@[simp] theorem State.setPc_keys (w : Word) : (s.setPc w).keys = s.keys := rfl
@[simp] theorem State.setPc_lastOpcode (w : Word) : (s.setPc w).lastOpcode = s.lastOpcode := rfl
@[simp] theorem State.setPc_rng (w : Word) : (s.setPc w).rng = s.rng := rfl
@[simp] theorem State.setPc_fault (w : Word) : (s.setPc w).fault = s.fault := rfl
@[simp] theorem State.setPc_waiting (w : Word) : (s.setPc w).waiting = s.waiting := rfl
@[simp] theorem State.setPc_port (w : Word) : (s.setPc w).port = s.port := rfl

@[simp] theorem State.pushAt_mem (k : Fin 16) (w : Word) : (s.pushAt k w).mem = s.mem := rfl
@[simp] theorem State.pushAt_V (k : Fin 16) (w : Word) : (s.pushAt k w).V = s.V := rfl
@[simp] theorem State.pushAt_I (k : Fin 16) (w : Word) : (s.pushAt k w).I = s.I := rfl
@[simp] theorem State.pushAt_pc (k : Fin 16) (w : Word) : (s.pushAt k w).pc = s.pc := rfl
@[simp] theorem State.pushAt_stack (k : Fin 16) (w : Word) : (s.pushAt k w).stack = s.stack.set k.val w := rfl
@[simp] theorem State.pushAt_sp (k : Fin 16) (w : Word) : (s.pushAt k w).sp = k := rfl
@[simp] theorem State.pushAt_DT (k : Fin 16) (w : Word) : (s.pushAt k w).DT = s.DT := rfl
@[simp] theorem State.pushAt_ST (k : Fin 16) (w : Word) : (s.pushAt k w).ST = s.ST := rfl
@[simp] theorem State.pushAt_disp (k : Fin 16) (w : Word) : (s.pushAt k w).disp = s.disp := rfl
@[simp] theorem State.pushAt_dirty (k : Fin 16) (w : Word) : (s.pushAt k w).dirty = s.dirty := rfl
@[simp] theorem State.pushAt_keys (k : Fin 16) (w : Word) : (s.pushAt k w).keys = s.keys := rfl
@[simp] theorem State.pushAt_lastOpcode (k : Fin 16) (w : Word) : (s.pushAt k w).lastOpcode = s.lastOpcode := rfl
@[simp] theorem State.pushAt_rng (k : Fin 16) (w : Word) : (s.pushAt k w).rng = s.rng := rfl
@[simp] theorem State.pushAt_fault (k : Fin 16) (w : Word) : (s.pushAt k w).fault = s.fault := rfl
@[simp] theorem State.pushAt_waiting (k : Fin 16) (w : Word) : (s.pushAt k w).waiting = s.waiting := rfl
@[simp] theorem State.pushAt_port (k : Fin 16) (w : Word) : (s.pushAt k w).port = s.port := rfl

@[simp] theorem State.setSp_mem (k : Fin 16) : (s.setSp k).mem = s.mem := rfl
@[simp] theorem State.setSp_V (k : Fin 16) : (s.setSp k).V = s.V := rfl
@[simp] theorem State.setSp_I (k : Fin 16) : (s.setSp k).I = s.I := rfl
@[simp] theorem State.setSp_pc (k : Fin 16) : (s.setSp k).pc = s.pc := rfl
@[simp] theorem State.setSp_stack (k : Fin 16) : (s.setSp k).stack = s.stack := rfl
@[simp] theorem State.setSp_sp (k : Fin 16) : (s.setSp k).sp = k := rfl
@[simp] theorem State.setSp_DT (k : Fin 16) : (s.setSp k).DT = s.DT := rfl
@[simp] theorem State.setSp_ST (k : Fin 16) : (s.setSp k).ST = s.ST := rfl
@[simp] theorem State.setSp_disp (k : Fin 16) : (s.setSp k).disp = s.disp := rfl
@[simp] theorem State.setSp_dirty (k : Fin 16) : (s.setSp k).dirty = s.dirty := rfl
@[simp] theorem State.setSp_keys (k : Fin 16) : (s.setSp k).keys = s.keys := rfl
@[simp] theorem State.setSp_lastOpcode (k : Fin 16) : (s.setSp k).lastOpcode = s.lastOpcode := rfl
@[simp] theorem State.setSp_rng (k : Fin 16) : (s.setSp k).rng = s.rng := rfl
@[simp] theorem State.setSp_fault (k : Fin 16) : (s.setSp k).fault = s.fault := rfl
@[simp] theorem State.setSp_waiting (k : Fin 16) : (s.setSp k).waiting = s.waiting := rfl
@[simp] theorem State.setSp_port (k : Fin 16) : (s.setSp k).port = s.port := rfl

@[simp] theorem State.setDT_mem (b : Byte) : (s.setDT b).mem = s.mem := rfl
@[simp] theorem State.setDT_V (b : Byte) : (s.setDT b).V = s.V := rfl
@[simp] theorem State.setDT_I (b : Byte) : (s.setDT b).I = s.I := rfl
@[simp] theorem State.setDT_pc (b : Byte) : (s.setDT b).pc = s.pc := rfl
@[simp] theorem State.setDT_stack (b : Byte) : (s.setDT b).stack = s.stack := rfl
@[simp] theorem State.setDT_sp (b : Byte) : (s.setDT b).sp = s.sp := rfl
@[simp] theorem State.setDT_DT (b : Byte) : (s.setDT b).DT = b := rfl
@[simp] theorem State.setDT_ST (b : Byte) : (s.setDT b).ST = s.ST := rfl
@[simp] theorem State.setDT_disp (b : Byte) : (s.setDT b).disp = s.disp := rfl
@[simp] theorem State.setDT_dirty (b : Byte) : (s.setDT b).dirty = s.dirty := rfl
@[simp] theorem State.setDT_keys (b : Byte) : (s.setDT b).keys = s.keys := rfl
@[simp] theorem State.setDT_lastOpcode (b : Byte) : (s.setDT b).lastOpcode = s.lastOpcode := rfl
@[simp] theorem State.setDT_rng (b : Byte) : (s.setDT b).rng = s.rng := rfl
@[simp] theorem State.setDT_fault (b : Byte) : (s.setDT b).fault = s.fault := rfl
@[simp] theorem State.setDT_waiting (b : Byte) : (s.setDT b).waiting = s.waiting := rfl
@[simp] theorem State.setDT_port (b : Byte) : (s.setDT b).port = s.port := rfl

@[simp] theorem State.setST_mem (b : Byte) : (s.setST b).mem = s.mem := rfl
@[simp] theorem State.setST_V (b : Byte) : (s.setST b).V = s.V := rfl
@[simp] theorem State.setST_I (b : Byte) : (s.setST b).I = s.I := rfl
@[simp] theorem State.setST_pc (b : Byte) : (s.setST b).pc = s.pc := rfl
@[simp] theorem State.setST_stack (b : Byte) : (s.setST b).stack = s.stack := rfl
@[simp] theorem State.setST_sp (b : Byte) : (s.setST b).sp = s.sp := rfl
@[simp] theorem State.setST_DT (b : Byte) : (s.setST b).DT = s.DT := rfl
@[simp] theorem State.setST_ST (b : Byte) : (s.setST b).ST = b := rfl
@[simp] theorem State.setST_disp (b : Byte) : (s.setST b).disp = s.disp := rfl
@[simp] theorem State.setST_dirty (b : Byte) : (s.setST b).dirty = s.dirty := rfl
@[simp] theorem State.setST_keys (b : Byte) : (s.setST b).keys = s.keys := rfl
@[simp] theorem State.setST_lastOpcode (b : Byte) : (s.setST b).lastOpcode = s.lastOpcode := rfl
@[simp] theorem State.setST_rng (b : Byte) : (s.setST b).rng = s.rng := rfl
@[simp] theorem State.setST_fault (b : Byte) : (s.setST b).fault = s.fault := rfl
@[simp] theorem State.setST_waiting (b : Byte) : (s.setST b).waiting = s.waiting := rfl
@[simp] theorem State.setST_port (b : Byte) : (s.setST b).port = s.port := rfl

@[simp] theorem State.setMem_mem (m : Memory) : (s.setMem m).mem = m := rfl
@[simp] theorem State.setMem_V (m : Memory) : (s.setMem m).V = s.V := rfl
@[simp] theorem State.setMem_I (m : Memory) : (s.setMem m).I = s.I := rfl
@[simp] theorem State.setMem_pc (m : Memory) : (s.setMem m).pc = s.pc := rfl
@[simp] theorem State.setMem_stack (m : Memory) : (s.setMem m).stack = s.stack := rfl
@[simp] theorem State.setMem_sp (m : Memory) : (s.setMem m).sp = s.sp := rfl
@[simp] theorem State.setMem_DT (m : Memory) : (s.setMem m).DT = s.DT := rfl
@[simp] theorem State.setMem_ST (m : Memory) : (s.setMem m).ST = s.ST := rfl
@[simp] theorem State.setMem_disp (m : Memory) : (s.setMem m).disp = s.disp := rfl
@[simp] theorem State.setMem_dirty (m : Memory) : (s.setMem m).dirty = s.dirty := rfl
@[simp] theorem State.setMem_keys (m : Memory) : (s.setMem m).keys = s.keys := rfl
@[simp] theorem State.setMem_lastOpcode (m : Memory) : (s.setMem m).lastOpcode = s.lastOpcode := rfl
@[simp] theorem State.setMem_rng (m : Memory) : (s.setMem m).rng = s.rng := rfl
@[simp] theorem State.setMem_fault (m : Memory) : (s.setMem m).fault = s.fault := rfl
@[simp] theorem State.setMem_waiting (m : Memory) : (s.setMem m).waiting = s.waiting := rfl
@[simp] theorem State.setMem_port (m : Memory) : (s.setMem m).port = s.port := rfl

@[simp] theorem State.paint_mem (d : Display) : (s.paint d).mem = s.mem := rfl
@[simp] theorem State.paint_V (d : Display) : (s.paint d).V = s.V := rfl
@[simp] theorem State.paint_I (d : Display) : (s.paint d).I = s.I := rfl
@[simp] theorem State.paint_pc (d : Display) : (s.paint d).pc = s.pc := rfl
@[simp] theorem State.paint_stack (d : Display) : (s.paint d).stack = s.stack := rfl
@[simp] theorem State.paint_sp (d : Display) : (s.paint d).sp = s.sp := rfl
@[simp] theorem State.paint_DT (d : Display) : (s.paint d).DT = s.DT := rfl
@[simp] theorem State.paint_ST (d : Display) : (s.paint d).ST = s.ST := rfl
@[simp] theorem State.paint_disp (d : Display) : (s.paint d).disp = d := rfl
@[simp] theorem State.paint_dirty (d : Display) : (s.paint d).dirty = true := rfl
@[simp] theorem State.paint_keys (d : Display) : (s.paint d).keys = s.keys := rfl
@[simp] theorem State.paint_lastOpcode (d : Display) : (s.paint d).lastOpcode = s.lastOpcode := rfl
@[simp] theorem State.paint_rng (d : Display) : (s.paint d).rng = s.rng := rfl
@[simp] theorem State.paint_fault (d : Display) : (s.paint d).fault = s.fault := rfl
@[simp] theorem State.paint_waiting (d : Display) : (s.paint d).waiting = s.waiting := rfl
@[simp] theorem State.paint_port (d : Display) : (s.paint d).port = s.port := rfl

@[simp] theorem State.setRng_mem (w : RngWord) : (s.setRng w).mem = s.mem := rfl
@[simp] theorem State.setRng_V (w : RngWord) : (s.setRng w).V = s.V := rfl
@[simp] theorem State.setRng_I (w : RngWord) : (s.setRng w).I = s.I := rfl
@[simp] theorem State.setRng_pc (w : RngWord) : (s.setRng w).pc = s.pc := rfl
@[simp] theorem State.setRng_stack (w : RngWord) : (s.setRng w).stack = s.stack := rfl
@[simp] theorem State.setRng_sp (w : RngWord) : (s.setRng w).sp = s.sp := rfl
@[simp] theorem State.setRng_DT (w : RngWord) : (s.setRng w).DT = s.DT := rfl
@[simp] theorem State.setRng_ST (w : RngWord) : (s.setRng w).ST = s.ST := rfl
@[simp] theorem State.setRng_disp (w : RngWord) : (s.setRng w).disp = s.disp := rfl
@[simp] theorem State.setRng_dirty (w : RngWord) : (s.setRng w).dirty = s.dirty := rfl
@[simp] theorem State.setRng_keys (w : RngWord) : (s.setRng w).keys = s.keys := rfl
@[simp] theorem State.setRng_lastOpcode (w : RngWord) : (s.setRng w).lastOpcode = s.lastOpcode := rfl
@[simp] theorem State.setRng_rng (w : RngWord) : (s.setRng w).rng = w := rfl
@[simp] theorem State.setRng_fault (w : RngWord) : (s.setRng w).fault = s.fault := rfl
@[simp] theorem State.setRng_waiting (w : RngWord) : (s.setRng w).waiting = s.waiting := rfl
@[simp] theorem State.setRng_port (w : RngWord) : (s.setRng w).port = s.port := rfl

@[simp] theorem State.setKeys_mem (ks : Keys) : (s.setKeys ks).mem = s.mem := rfl
@[simp] theorem State.setKeys_V (ks : Keys) : (s.setKeys ks).V = s.V := rfl
@[simp] theorem State.setKeys_I (ks : Keys) : (s.setKeys ks).I = s.I := rfl
@[simp] theorem State.setKeys_pc (ks : Keys) : (s.setKeys ks).pc = s.pc := rfl
@[simp] theorem State.setKeys_stack (ks : Keys) : (s.setKeys ks).stack = s.stack := rfl
@[simp] theorem State.setKeys_sp (ks : Keys) : (s.setKeys ks).sp = s.sp := rfl
@[simp] theorem State.setKeys_DT (ks : Keys) : (s.setKeys ks).DT = s.DT := rfl
@[simp] theorem State.setKeys_ST (ks : Keys) : (s.setKeys ks).ST = s.ST := rfl
@[simp] theorem State.setKeys_disp (ks : Keys) : (s.setKeys ks).disp = s.disp := rfl
@[simp] theorem State.setKeys_dirty (ks : Keys) : (s.setKeys ks).dirty = s.dirty := rfl
@[simp] theorem State.setKeys_keys (ks : Keys) : (s.setKeys ks).keys = ks := rfl
@[simp] theorem State.setKeys_lastOpcode (ks : Keys) : (s.setKeys ks).lastOpcode = s.lastOpcode := rfl
@[simp] theorem State.setKeys_rng (ks : Keys) : (s.setKeys ks).rng = s.rng := rfl
@[simp] theorem State.setKeys_fault (ks : Keys) : (s.setKeys ks).fault = s.fault := rfl
@[simp] theorem State.setKeys_waiting (ks : Keys) : (s.setKeys ks).waiting = s.waiting := rfl
@[simp] theorem State.setKeys_port (ks : Keys) : (s.setKeys ks).port = s.port := rfl

@[simp] theorem State.setWaiting_mem (b : Bool) : (s.setWaiting b).mem = s.mem := rfl
@[simp] theorem State.setWaiting_V (b : Bool) : (s.setWaiting b).V = s.V := rfl
@[simp] theorem State.setWaiting_I (b : Bool) : (s.setWaiting b).I = s.I := rfl
@[simp] theorem State.setWaiting_pc (b : Bool) : (s.setWaiting b).pc = s.pc := rfl
@[simp] theorem State.setWaiting_stack (b : Bool) : (s.setWaiting b).stack = s.stack := rfl
@[simp] theorem State.setWaiting_sp (b : Bool) : (s.setWaiting b).sp = s.sp := rfl
@[simp] theorem State.setWaiting_DT (b : Bool) : (s.setWaiting b).DT = s.DT := rfl
@[simp] theorem State.setWaiting_ST (b : Bool) : (s.setWaiting b).ST = s.ST := rfl
@[simp] theorem State.setWaiting_disp (b : Bool) : (s.setWaiting b).disp = s.disp := rfl
@[simp] theorem State.setWaiting_dirty (b : Bool) : (s.setWaiting b).dirty = s.dirty := rfl
@[simp] theorem State.setWaiting_keys (b : Bool) : (s.setWaiting b).keys = s.keys := rfl
@[simp] theorem State.setWaiting_lastOpcode (b : Bool) : (s.setWaiting b).lastOpcode = s.lastOpcode := rfl
@[simp] theorem State.setWaiting_rng (b : Bool) : (s.setWaiting b).rng = s.rng := rfl
@[simp] theorem State.setWaiting_fault (b : Bool) : (s.setWaiting b).fault = s.fault := rfl
@[simp] theorem State.setWaiting_waiting (b : Bool) : (s.setWaiting b).waiting = b := rfl
@[simp] theorem State.setWaiting_port (b : Bool) : (s.setWaiting b).port = s.port := rfl

@[simp] theorem State.emit_mem (e : Event) : (s.emit e).mem = s.mem := rfl
@[simp] theorem State.emit_V (e : Event) : (s.emit e).V = s.V := rfl
@[simp] theorem State.emit_I (e : Event) : (s.emit e).I = s.I := rfl
@[simp] theorem State.emit_pc (e : Event) : (s.emit e).pc = s.pc := rfl
@[simp] theorem State.emit_stack (e : Event) : (s.emit e).stack = s.stack := rfl
@[simp] theorem State.emit_sp (e : Event) : (s.emit e).sp = s.sp := rfl
@[simp] theorem State.emit_DT (e : Event) : (s.emit e).DT = s.DT := rfl
@[simp] theorem State.emit_ST (e : Event) : (s.emit e).ST = s.ST := rfl
@[simp] theorem State.emit_disp (e : Event) : (s.emit e).disp = s.disp := rfl
@[simp] theorem State.emit_dirty (e : Event) : (s.emit e).dirty = s.dirty := rfl
@[simp] theorem State.emit_keys (e : Event) : (s.emit e).keys = s.keys := rfl
@[simp] theorem State.emit_lastOpcode (e : Event) : (s.emit e).lastOpcode = s.lastOpcode := rfl
@[simp] theorem State.emit_rng (e : Event) : (s.emit e).rng = s.rng := rfl
@[simp] theorem State.emit_fault (e : Event) : (s.emit e).fault = s.fault := rfl
@[simp] theorem State.emit_waiting (e : Event) : (s.emit e).waiting = s.waiting := rfl
@[simp] theorem State.emit_port (e : Event) : (s.emit e).port = { s.port with events := e :: s.port.events } := rfl

@[simp] theorem State.raise_mem (f : Fault) : (s.raise f).mem = s.mem := rfl
@[simp] theorem State.raise_V (f : Fault) : (s.raise f).V = s.V := rfl
@[simp] theorem State.raise_I (f : Fault) : (s.raise f).I = s.I := rfl
@[simp] theorem State.raise_pc (f : Fault) : (s.raise f).pc = s.pc := rfl
@[simp] theorem State.raise_stack (f : Fault) : (s.raise f).stack = s.stack := rfl
@[simp] theorem State.raise_sp (f : Fault) : (s.raise f).sp = s.sp := rfl
@[simp] theorem State.raise_DT (f : Fault) : (s.raise f).DT = s.DT := rfl
@[simp] theorem State.raise_ST (f : Fault) : (s.raise f).ST = s.ST := rfl
@[simp] theorem State.raise_disp (f : Fault) : (s.raise f).disp = s.disp := rfl
@[simp] theorem State.raise_dirty (f : Fault) : (s.raise f).dirty = s.dirty := rfl
@[simp] theorem State.raise_keys (f : Fault) : (s.raise f).keys = s.keys := rfl
@[simp] theorem State.raise_lastOpcode (f : Fault) : (s.raise f).lastOpcode = s.lastOpcode := rfl
@[simp] theorem State.raise_rng (f : Fault) : (s.raise f).rng = s.rng := rfl
@[simp] theorem State.raise_fault (f : Fault) : (s.raise f).fault = some f := rfl
@[simp] theorem State.raise_waiting (f : Fault) : (s.raise f).waiting = s.waiting := rfl
@[simp] theorem State.raise_port (f : Fault) : (s.raise f).port = s.port := rfl

@[simp] theorem State.latch_mem (op : Word) : (s.latch op).mem = s.mem := rfl
@[simp] theorem State.latch_V (op : Word) : (s.latch op).V = s.V := rfl
@[simp] theorem State.latch_I (op : Word) : (s.latch op).I = s.I := rfl
@[simp] theorem State.latch_pc (op : Word) : (s.latch op).pc = s.pc := rfl
@[simp] theorem State.latch_stack (op : Word) : (s.latch op).stack = s.stack := rfl
@[simp] theorem State.latch_sp (op : Word) : (s.latch op).sp = s.sp := rfl
@[simp] theorem State.latch_DT (op : Word) : (s.latch op).DT = s.DT := rfl
@[simp] theorem State.latch_ST (op : Word) : (s.latch op).ST = s.ST := rfl
@[simp] theorem State.latch_disp (op : Word) : (s.latch op).disp = s.disp := rfl
@[simp] theorem State.latch_dirty (op : Word) : (s.latch op).dirty = s.dirty := rfl
@[simp] theorem State.latch_keys (op : Word) : (s.latch op).keys = s.keys := rfl
@[simp] theorem State.latch_lastOpcode (op : Word) : (s.latch op).lastOpcode = op := rfl
@[simp] theorem State.latch_rng (op : Word) : (s.latch op).rng = s.rng := rfl
@[simp] theorem State.latch_fault (op : Word) : (s.latch op).fault = s.fault := rfl
@[simp] theorem State.latch_waiting (op : Word) : (s.latch op).waiting = false := rfl
@[simp] theorem State.latch_port (op : Word) : (s.latch op).port = s.port := rfl

@[simp] theorem State.refresh_mem : (s.refresh).mem = s.mem := rfl
@[simp] theorem State.refresh_V : (s.refresh).V = s.V := rfl
@[simp] theorem State.refresh_I : (s.refresh).I = s.I := rfl
@[simp] theorem State.refresh_pc : (s.refresh).pc = s.pc := rfl
@[simp] theorem State.refresh_stack : (s.refresh).stack = s.stack := rfl
@[simp] theorem State.refresh_sp : (s.refresh).sp = s.sp := rfl
@[simp] theorem State.refresh_DT : (s.refresh).DT = s.DT := rfl
@[simp] theorem State.refresh_ST : (s.refresh).ST = s.ST := rfl
@[simp] theorem State.refresh_disp : (s.refresh).disp = s.disp := rfl
@[simp] theorem State.refresh_dirty : (s.refresh).dirty = s.dirty := rfl
@[simp] theorem State.refresh_keys : (s.refresh).keys = s.nextSample := rfl
@[simp] theorem State.refresh_lastOpcode : (s.refresh).lastOpcode = s.lastOpcode := rfl
@[simp] theorem State.refresh_rng : (s.refresh).rng = s.rng := rfl
@[simp] theorem State.refresh_fault : (s.refresh).fault = s.fault := rfl
@[simp] theorem State.refresh_waiting : (s.refresh).waiting = s.waiting := rfl
@[simp] theorem State.refresh_port : (s.refresh).port = { samples := s.port.samples.tail, sampleNo := s.port.sampleNo + 1, events := .keySample :: s.port.events } := rfl

@[simp] theorem State.setI_reg (w : Word) (r : Reg) : (s.setI w).reg r = s.reg r := rfl
@[simp] theorem State.setPc_reg (w : Word) (r : Reg) : (s.setPc w).reg r = s.reg r := rfl
@[simp] theorem State.pushAt_reg (k : Fin 16) (w : Word) (r : Reg) : (s.pushAt k w).reg r = s.reg r := rfl
@[simp] theorem State.setSp_reg (k : Fin 16) (r : Reg) : (s.setSp k).reg r = s.reg r := rfl
@[simp] theorem State.setDT_reg (b : Byte) (r : Reg) : (s.setDT b).reg r = s.reg r := rfl
@[simp] theorem State.setST_reg (b : Byte) (r : Reg) : (s.setST b).reg r = s.reg r := rfl
@[simp] theorem State.setMem_reg (m : Memory) (r : Reg) : (s.setMem m).reg r = s.reg r := rfl
@[simp] theorem State.paint_reg (d : Display) (r : Reg) : (s.paint d).reg r = s.reg r := rfl
@[simp] theorem State.setRng_reg (w : RngWord) (r : Reg) : (s.setRng w).reg r = s.reg r := rfl
@[simp] theorem State.setKeys_reg (ks : Keys) (r : Reg) : (s.setKeys ks).reg r = s.reg r := rfl
@[simp] theorem State.setWaiting_reg (b : Bool) (r : Reg) : (s.setWaiting b).reg r = s.reg r := rfl
@[simp] theorem State.emit_reg (e : Event) (r : Reg) : (s.emit e).reg r = s.reg r := rfl
@[simp] theorem State.raise_reg (f : Fault) (r : Reg) : (s.raise f).reg r = s.reg r := rfl
@[simp] theorem State.latch_reg (op : Word) (r : Reg) : (s.latch op).reg r = s.reg r := rfl
@[simp] theorem State.refresh_reg (r : Reg) : (s.refresh).reg r = s.reg r := rfl

@[simp] theorem State.setReg_slot (x : Reg) (b : Byte) (j : Fin 16) : (s.setReg x b).slot j = s.slot j := rfl
@[simp] theorem State.setV_slot (v : Vector Byte 16) (j : Fin 16) : (s.setV v).slot j = s.slot j := rfl
@[simp] theorem State.setI_slot (w : Word) (j : Fin 16) : (s.setI w).slot j = s.slot j := rfl
@[simp] theorem State.setPc_slot (w : Word) (j : Fin 16) : (s.setPc w).slot j = s.slot j := rfl
@[simp] theorem State.setSp_slot (k : Fin 16) (j : Fin 16) : (s.setSp k).slot j = s.slot j := rfl
@[simp] theorem State.setDT_slot (b : Byte) (j : Fin 16) : (s.setDT b).slot j = s.slot j := rfl
@[simp] theorem State.setST_slot (b : Byte) (j : Fin 16) : (s.setST b).slot j = s.slot j := rfl
@[simp] theorem State.setMem_slot (m : Memory) (j : Fin 16) : (s.setMem m).slot j = s.slot j := rfl
@[simp] theorem State.paint_slot (d : Display) (j : Fin 16) : (s.paint d).slot j = s.slot j := rfl
@[simp] theorem State.setRng_slot (w : RngWord) (j : Fin 16) : (s.setRng w).slot j = s.slot j := rfl
@[simp] theorem State.setKeys_slot (ks : Keys) (j : Fin 16) : (s.setKeys ks).slot j = s.slot j := rfl
@[simp] theorem State.setWaiting_slot (b : Bool) (j : Fin 16) : (s.setWaiting b).slot j = s.slot j := rfl
@[simp] theorem State.emit_slot (e : Event) (j : Fin 16) : (s.emit e).slot j = s.slot j := rfl
@[simp] theorem State.raise_slot (f : Fault) (j : Fin 16) : (s.raise f).slot j = s.slot j := rfl
@[simp] theorem State.latch_slot (op : Word) (j : Fin 16) : (s.latch op).slot j = s.slot j := rfl
@[simp] theorem State.refresh_slot (j : Fin 16) : (s.refresh).slot j = s.slot j := rfl

/-- Reading a register after a register write. -/
@[simp] theorem State.setReg_reg (x : Reg) (b : Byte) (r : Reg) :
    (s.setReg x b).reg r = if r = x then b else s.reg r := by
  simp only [State.reg, State.setReg_V, Vector.getElem_set, Fin.ext_iff, eq_comm (a := r.val)]

/-- Reading a register after all sixteen are written. -/
@[simp] theorem State.setV_reg (v : Vector Byte 16) (r : Reg) : (s.setV v).reg r = v[r.val] := rfl

/-- Reading a stack slot after a push. -/
@[simp] theorem State.pushAt_slot (k : Fin 16) (w : Word) (j : Fin 16) :
    (s.pushAt k w).slot j = if j = k then w else s.slot j := by
  simp only [State.slot, State.pushAt_stack, Vector.getElem_set, Fin.ext_iff, eq_comm (a := j.val)]

/-- A register that is not written keeps its value. -/
theorem State.setReg_reg_ne (x r : Reg) (b : Byte) (h : r ≠ x) : (s.setReg x b).reg r = s.reg r := by simp [h]

/-- The sixteen registers are what `reg` reads. -/
theorem State.V_ext (t : State) (h : ∀ r, t.reg r = s.reg r) : t.V = s.V := by
  apply Vector.ext
  intro i hi
  exact h ⟨i, hi⟩

/-- The sequential advance writes `pc` only. -/
@[simp] theorem State.advance_eq : s.advance = s.setPc (s.pc + 2) := rfl

/-- A skip writes `pc` only. -/
@[simp] theorem State.skipIf_eq (test : Bool) :
    s.skipIf test = s.setPc (if test then s.pc + 4 else s.pc + 2) := rfl

/-- Writing the flag is writing register 15. -/
@[simp] theorem State.setFlag_eq (f : Bool) : s.setFlag f = s.setReg 15 (flagByte f) := rfl

end Sys2Proof.Machine
end

