-- ==== Sys2Proof/Laws/Ops.lean ====
section
/-! SUPPORT. One lemma for each shared operation that says everything it can do; the provers cite these and unfold none
of the operations. -/

namespace Sys2Proof.Machine

/-- An access lies in memory when it has no byte or its last byte is at most at 4095 (20_memory R55). -/
theorem accessible_iff {s : State} {n : Nat} : s.accessible n = true ↔ n = 0 ∨ s.I.toNat + n ≤ 4096 := by
  simp only [State.accessible, Bool.or_eq_true, decide_eq_true_eq]
  simp only [State.effAddr, Config.memSize]
  omega

/-- An access that lies in memory has its effect. -/
theorem access_inside {s e : State} {n : Nat} (h : n = 0 ∨ s.I.toNat + n ≤ 4096) : s.access n e = e := by
  rw [State.access, if_pos (accessible_iff.2 h)]

/-- An access that leaves memory takes the fault and has no effect. -/
theorem access_outside {s e : State} {n : Nat} (h : ¬(n = 0 ∨ s.I.toNat + n ≤ 4096)) :
    s.access n e = s.raise (.memOutOfRange (max s.I.toNat 4096)) := by
  rw [State.access, if_neg (mt accessible_iff.1 h)]
  rfl

/-- A 12-bit immediate keeps its value in 16 bits (30_encoding R73). -/
@[simp] theorem zext16_toNat (n : Addr12) : (zext16 n).toNat = n.toNat := by
  simp [zext16]
  omega

/-- A register keeps its value in 16 bits. -/
@[simp] theorem zextByte_toNat (b : Byte) : (zextByte b).toNat = b.toNat := by
  simp [zextByte]
  omega

/-- A timer counts down to 0 and stays there (10_state R26). -/
@[simp] theorem countDown_toNat (b : Byte) : (countDown b).toNat = b.toNat - 1 := by
  unfold countDown
  split
  · next h => simp [h]
  · next h =>
    have h1 : b.toNat ≠ 0 := fun h0 => h (BitVec.eq_of_toNat_eq h0)
    rw [BitVec.toNat_sub]
    have := b.isLt
    simp
    omega

/-- The tick writes the timers and the event log only (40_step_cycle R97). -/
theorem timerTick_eq (s : State) : s.timerTick =
    { s with DT := countDown s.DT, ST := countDown s.ST,
             port := { s.port with events := beeps s.ST ++ s.port.events } } := by
  unfold State.timerTick beeps
  split <;> simp_all [State.emit, State.setDT, State.setST]

/-- A flag's value as a number. -/
@[simp] theorem flagByte_toNat (f : Bool) : (flagByte f).toNat = if f then 1 else 0 := by cases f <;> rfl

/-- The end of a step that raised a fault (60_exceptions R211). -/
theorem settle_fault {b a : State} {r : Bool} {k : Fault} (h : a.fault = some k) : b.settle r a = b.raise k := by
  simp [State.settle, h]

/-- The end of a step that is held in a key wait (40_step_cycle R99). -/
theorem settle_waiting {b a : State} {r : Bool} (h : a.fault = none) (hw : a.waiting = true) : b.settle r a = a := by
  simp [State.settle, h, hw]

/-- The end of a completed step (40_step_cycle R97, R98). -/
theorem settle_done {b a : State} {r : Bool} (h : a.fault = none) (hw : a.waiting = false) :
    b.settle r a = a.timerTick.emit (.returned r) := by
  simp [State.settle, h, hw]

/-- Every instruction's meaning gives a next state: none stops and none is refused. -/
theorem exec_next (i : Instr) (s : State) : ∃ t, exec i s = .next t := by
  cases i <;> exact ⟨_, rfl⟩

theorem pcLegal_iff {s : State} : s.pcLegal = true ↔ s.pc.toNat ≤ 4094 := by
  simp only [State.pcLegal, decide_eq_true_eq]
  rfl

@[simp] theorem refresh_pcLegal (s : State) : s.refresh.pcLegal = s.pcLegal := rfl

@[simp] theorem refresh_fetchWord (s : State) : s.refresh.fetchWord = s.fetchWord := rfl

/-- A faulted machine has no step (40_step_cycle R90). -/
theorem step_faulted {s : State} {k : Fault} (h : s.fault = some k) : step s = .fault k := by
  simp [step, h]

/-- A step that cannot fetch (40_step_cycle R92). -/
theorem step_pcOutOfRange {s : State} (h : s.fault = none) (hp : ¬s.pc.toNat ≤ 4094) :
    step s = .next (s.refresh.raise (.pcOutOfRange s.pc)) := by
  simp [step, h, pcLegal_iff, hp]

/-- A step of a recognised word (40_step_cycle R94). -/
theorem step_instr {s t : State} {i : Instr} (h : s.CanFetch) (hd : decodeWord s.fetchWord = some i)
    (he : exec i (s.refresh.latch s.fetchWord) = .next t) : step s = .next (s.refresh.settle true t) := by
  simp [step, h.1, pcLegal_iff, h.2, hd, he, finish]

/-- A step of an unrecognised word (40_step_cycle R96). -/
theorem step_unrecognised {s : State} (h : s.CanFetch) (hd : decodeWord s.fetchWord = none) :
    step s = .next (s.refresh.settle false ((s.refresh.latch s.fetchWord).unrecognised s.fetchWord)) := by
  simp [step, h.1, pcLegal_iff, h.2, hd, finish]

/-- Everything a step can do when it gives a next state. -/
theorem step_cases {s t : State} (h : step s = .next t) :
    s.fault = none ∧
    ((¬s.pc.toNat ≤ 4094 ∧ t = s.refresh.raise (.pcOutOfRange s.pc)) ∨
     (s.CanFetch ∧ ∃ i a, decodeWord s.fetchWord = some i ∧ exec i (s.refresh.latch s.fetchWord) = .next a ∧
       t = s.refresh.settle true a) ∨
     (s.CanFetch ∧ decodeWord s.fetchWord = none ∧
       t = s.refresh.settle false ((s.refresh.latch s.fetchWord).unrecognised s.fetchWord))) := by
  cases hf : s.fault with
  | some k => simp [step_faulted hf] at h
  | none =>
    refine ⟨rfl, ?_⟩
    by_cases hp : s.pc.toNat ≤ 4094
    · refine .inr ?_
      cases hd : decodeWord s.fetchWord with
      | some i =>
        obtain ⟨a, ha⟩ := exec_next i (s.refresh.latch s.fetchWord)
        rw [step_instr ⟨hf, hp⟩ hd ha] at h
        exact .inl ⟨⟨hf, hp⟩, i, a, rfl, ha, (Host.Outcome.next.inj h).symm⟩
      | none =>
        rw [step_unrecognised ⟨hf, hp⟩ hd] at h
        exact .inr ⟨⟨hf, hp⟩, rfl, (Host.Outcome.next.inj h).symm⟩
    · rw [step_pcOutOfRange hf hp] at h
      exact .inl ⟨hp, (Host.Outcome.next.inj h).symm⟩

/-- A load's origin where the host gives one (48_host_operations R191). -/
@[simp] theorem loadOrigin_some (origin : Nat) : loadOrigin (some origin) = origin := rfl

/-- A load's origin where the host gives none (48_host_operations R191). -/
@[simp] theorem loadOrigin_none : loadOrigin none = 512 := rfl

/-- When a load fits (48_host_operations R191, R192). -/
theorem loadFits_iff {bs : List Byte} {o : Nat} : loadFits bs o = true ↔ o ≤ 4096 ∧ bs.length ≤ 4096 - o := by
  simp only [loadFits, Bool.and_eq_true, decide_eq_true_eq]
  rfl

/-- The least key that is down, where there is one (47_timer_key R182). -/
theorem leastKeyDown_eq_some {ks : Keys} {k : Nat} :
    leastKeyDown ks = some k ↔ k < 16 ∧ ks.getLsbD k = true ∧ ∀ j < k, ks.getLsbD j = false := by
  unfold leastKeyDown keyDown
  rw [List.find?_range_eq_some]
  simp
  tauto

/-- No key is down. -/
theorem leastKeyDown_eq_none {ks : Keys} : leastKeyDown ks = none ↔ ks = 0 := by
  unfold leastKeyDown keyDown
  rw [List.find?_eq_none]
  constructor
  · intro h
    apply BitVec.eq_of_getLsbD_eq
    intro i hi
    have := h i (List.mem_range.2 hi)
    simpa using this
  · rintro rfl
    simp

/-- A word placed at a legal `pc` is what the next step fetches (20_memory R52, R62). -/
theorem placeWord_fetchWord {s : State} {op : Word} (h : s.pc.toNat ≤ 4094) (hm : s.mem.wf = true) :
    (s.placeWord op).fetchWord = op := by
  have hb : s.pc.toNat + [hiByte op, loByte op].length ≤ 4096 := by simp; omega
  rw [State.placeWord, if_pos (pcLegal_iff.2 h)]
  simp only [State.fetchWord, Memory.readWord, State.setMem_mem, State.setMem_pc]
  rw [Memory.read_writeBytes hb hm, Memory.read_writeBytes hb hm, dif_pos (by simp), dif_pos (by simp)]
  simp

end Sys2Proof.Machine
end

