-- ==== Sys2Proof/Laws/Exec.lean ====
section
/-! SUPPORT. The meanings that have cases, in the case where they take no fault: what `exec` answers there. Every other
instruction's `exec` is its one state by rfl. Then one step of a run. -/

namespace Sys2Proof.Machine

/-- RET with a slot to return to (41_control R111). -/
theorem exec_ret {s : State} (h : s.sp ≠ 0) : exec .ret s = .next ((s.setPc (s.slot s.sp + 2)).setSp (s.sp - 1)) := by
  simp only [exec, execRet, if_neg h]

/-- CALL with a free slot (41_control R113). -/
theorem exec_call {s : State} {nnn : Addr12} (h : s.sp ≠ 15) :
    exec (.call nnn) s = .next ((s.pushAt (s.sp + 1) s.pc).setPc (zext16 nnn)) := by
  simp only [exec, execCall, if_neg h]

/-- SKP on a key that exists (42_skip R124). -/
theorem exec_skp {s : State} {x : Reg} (h : (s.reg x).toNat ≤ 15) :
    exec (.skp x) s = .next (s.skipIf (keyDown s.keys (s.reg x).toNat == true)) := by
  simp only [exec, execSkp, State.skipOnKey, if_neg (Nat.not_lt.2 h)]

/-- SKNP on a key that exists (42_skip R125). -/
theorem exec_sknp {s : State} {x : Reg} (h : (s.reg x).toNat ≤ 15) :
    exec (.sknp x) s = .next (s.skipIf (keyDown s.keys (s.reg x).toNat == false)) := by
  simp only [exec, execSknp, State.skipOnKey, if_neg (Nat.not_lt.2 h)]

/-- DRW with its rows in memory (45_draw R161). -/
theorem exec_drw {s : State} {x y : Reg} {n : Nat} (h : n = 0 ∨ s.I.toNat + n ≤ 4096) :
    exec (.drw x y n) s =
      .next (((s.paint (s.drawn x y n).disp).setFlag (s.drawn x y n).hit).advance) := by
  simp only [exec, execDrw, access_inside h]

/-- LD B with its digits in memory (46_memory_ops R171). -/
theorem exec_ldB {s : State} {x : Reg} (h : s.I.toNat + 2 ≤ 4095) :
    exec (.ldB x) s = .next (s.setMem (s.stored (bcdDigits (s.reg x)))).advance := by
  simp only [exec, execLdB]
  rw [access_inside (by omega)]

/-- LD [I], Vx with its bytes in memory (46_memory_ops R172). -/
theorem exec_dump {s : State} {x : Reg} (h : s.I.toNat + x.val ≤ 4095) :
    exec (.dump x) s = .next (s.setMem (s.stored (s.regsUpTo x))).advance := by
  simp only [exec, execDump]
  rw [access_inside (by omega)]

/-- LD Vx, [I] with its bytes in memory (46_memory_ops R173). -/
theorem exec_load {s : State} {x : Reg} (h : s.I.toNat + x.val ≤ 4095) :
    exec (.load x) s = .next (s.setV (s.regsLoaded x)).advance := by
  simp only [exec, execLoad]
  rw [access_inside (by omega)]

/-- LD Vx, K with a key down (47_timer_key R182). -/
theorem exec_ldVxK {s : State} {x : Reg} {k : Nat} (h : leastKeyDown s.keys = some k) :
    exec (.ldVxK x) s = .next ((s.setReg x (BitVec.ofNat 8 k)).setWaiting false).advance := by
  simp only [exec, execLdVxK, State.keyWait, h]

/-- LD Vx, K with no key down (40_step_cycle R99). -/
theorem exec_ldVxK_held {s : State} {x : Reg} (h : leastKeyDown s.keys = none) :
    exec (.ldVxK x) s = .next (s.setWaiting true) := by
  simp only [exec, execLdVxK, State.keyWait, h]

/-- How many registers LD [I], Vx stores (46_memory_ops R172). -/
@[simp] theorem regsUpTo_length (s : State) (x : Reg) : (s.regsUpTo x).length = x.val + 1 := by
  simp [State.regsUpTo]

/-- Which register each of them is. -/
@[simp] theorem regsUpTo_getElem (s : State) (x : Reg) (k : Nat) (h : k < (s.regsUpTo x).length) :
    (s.regsUpTo x)[k] = s.V[k]'(by have := x.isLt; simp at h; omega) := by
  simp [State.regsUpTo]

/-- A register after LD Vx, [I] (46_memory_ops R173). -/
theorem regsLoaded_getElem (s : State) (x k : Reg) :
    (s.regsLoaded x)[k.val] = if k ≤ x then s.mem.read (s.effAddr k.val) else s.reg k := by
  rw [State.regsLoaded, Vector.getElem_ofFn]

/-- A run takes its first step first. -/
theorem run_succ {m : Nat} {s a : State} (h : step s = .next a) :
    Host.Core.run Sys2Proof.core (m + 1) s = Host.Core.run Sys2Proof.core m a := by
  have h' : Sys2Proof.core.step s = .next a := h
  simp only [Host.Core.run, h']

end Sys2Proof.Machine
end

