-- ==== Sys2Proof/Laws/PerInstr.lean ====
section
/-! SUPPORT. The family FixedBits: the word of a well-formed instruction has its row's fixed bits (30_encoding R74,
`op & mask = match`), one lemma for each constructor. -/

namespace Sys2Proof.Laws.FixedBits

/-- The word of the instruction lies in the instruction's own row. -/
def Statement (i : Instr) : Prop := i.wellFormed = true → encodeWord i &&& i.row.mask = i.row.value

/-- Format `NNN`. -/
theorem packNNN_row {t : Nat} {v : Word} (ht : t < 16) (hv : v.toNat = t * 4096) (nnn : Addr12) :
    packNNN t nnn &&& 0xF000 = v := by
  apply BitVec.eq_of_toNat_eq
  rw [and_F000, fieldT_packNNN nnn ht, hv]

/-- Format `XNN`. -/
theorem packXNN_row {t : Nat} {v : Word} (ht : t < 16) (hv : v.toNat = t * 4096) (x : Reg) (nn : Byte) :
    packXKK t x nn.toNat &&& 0xF000 = v := by
  apply BitVec.eq_of_toNat_eq
  rw [and_F000, fieldT_packXNN x ht, hv]

/-- Format `XKK`. -/
theorem packXKK_row {t kk : Nat} {v : Word} (ht : t < 16) (hk : kk < 256) (hv : v.toNat = t * 4096 + kk) (x : Reg) :
    packXKK t x kk &&& 0xF0FF = v := by
  apply BitVec.eq_of_toNat_eq
  rw [and_F0FF, fieldT_packXKK x ht hk, slice_packXKK x ht hk, hv]

/-- Format `XYN` with `n` fixed. -/
theorem packXYN_row {t n : Nat} {v : Word} (ht : t < 16) (hn : n < 16) (hv : v.toNat = t * 4096 + n) (x y : Reg) :
    packXYN t x y n &&& 0xF00F = v := by
  apply BitVec.eq_of_toNat_eq
  rw [and_F00F, fieldT_packXYN x y ht hn, fieldN_packXYN x y ht hn, hv]

/-- Format `XYN` with `n` an operand. -/
theorem packXYN_free_row {t n : Nat} {v : Word} (ht : t < 16) (hn : n < 16) (hv : v.toNat = t * 4096) (x y : Reg) :
    packXYN t x y n &&& 0xF000 = v := by
  apply BitVec.eq_of_toNat_eq
  rw [and_F000, fieldT_packXYN x y ht hn, hv]

theorem cls : Statement .cls := fun _ => rfl
theorem ret : Statement .ret := fun _ => rfl
theorem jp (nnn : Addr12) : Statement (.jp nnn) := fun _ => packNNN_row (by decide) rfl nnn
theorem call (nnn : Addr12) : Statement (.call nnn) := fun _ => packNNN_row (by decide) rfl nnn
theorem ldI (nnn : Addr12) : Statement (.ldI nnn) := fun _ => packNNN_row (by decide) rfl nnn
theorem jpV0 (nnn : Addr12) : Statement (.jpV0 nnn) := fun _ => packNNN_row (by decide) rfl nnn
theorem seImm (x : Reg) (nn : Byte) : Statement (.seImm x nn) := fun _ => packXNN_row (by decide) rfl x nn
theorem sneImm (x : Reg) (nn : Byte) : Statement (.sneImm x nn) := fun _ => packXNN_row (by decide) rfl x nn
theorem ldImm (x : Reg) (nn : Byte) : Statement (.ldImm x nn) := fun _ => packXNN_row (by decide) rfl x nn
theorem addImm (x : Reg) (nn : Byte) : Statement (.addImm x nn) := fun _ => packXNN_row (by decide) rfl x nn
theorem rnd (x : Reg) (nn : Byte) : Statement (.rnd x nn) := fun _ => packXNN_row (by decide) rfl x nn
theorem drw (x y : Reg) (n : Nat) : Statement (.drw x y n) := fun h =>
  packXYN_free_row (by decide) (by simp [Instr.wellFormed] at h; omega) rfl x y
theorem seReg (x y : Reg) : Statement (.seReg x y) := fun _ => packXYN_row (by decide) (by decide) rfl x y
theorem ldReg (x y : Reg) : Statement (.ldReg x y) := fun _ => packXYN_row (by decide) (by decide) rfl x y
theorem orReg (x y : Reg) : Statement (.orReg x y) := fun _ => packXYN_row (by decide) (by decide) rfl x y
theorem andReg (x y : Reg) : Statement (.andReg x y) := fun _ => packXYN_row (by decide) (by decide) rfl x y
theorem xorReg (x y : Reg) : Statement (.xorReg x y) := fun _ => packXYN_row (by decide) (by decide) rfl x y
theorem addReg (x y : Reg) : Statement (.addReg x y) := fun _ => packXYN_row (by decide) (by decide) rfl x y
theorem subReg (x y : Reg) : Statement (.subReg x y) := fun _ => packXYN_row (by decide) (by decide) rfl x y
theorem shr (x y : Reg) : Statement (.shr x y) := fun _ => packXYN_row (by decide) (by decide) rfl x y
theorem subnReg (x y : Reg) : Statement (.subnReg x y) := fun _ => packXYN_row (by decide) (by decide) rfl x y
theorem shl (x y : Reg) : Statement (.shl x y) := fun _ => packXYN_row (by decide) (by decide) rfl x y
theorem sneReg (x y : Reg) : Statement (.sneReg x y) := fun _ => packXYN_row (by decide) (by decide) rfl x y
theorem skp (x : Reg) : Statement (.skp x) := fun _ => packXKK_row (by decide) (by decide) rfl x
theorem sknp (x : Reg) : Statement (.sknp x) := fun _ => packXKK_row (by decide) (by decide) rfl x
theorem ldVxDT (x : Reg) : Statement (.ldVxDT x) := fun _ => packXKK_row (by decide) (by decide) rfl x
theorem ldVxK (x : Reg) : Statement (.ldVxK x) := fun _ => packXKK_row (by decide) (by decide) rfl x
theorem ldDTVx (x : Reg) : Statement (.ldDTVx x) := fun _ => packXKK_row (by decide) (by decide) rfl x
theorem ldSTVx (x : Reg) : Statement (.ldSTVx x) := fun _ => packXKK_row (by decide) (by decide) rfl x
theorem addI (x : Reg) : Statement (.addI x) := fun _ => packXKK_row (by decide) (by decide) rfl x
theorem ldF (x : Reg) : Statement (.ldF x) := fun _ => packXKK_row (by decide) (by decide) rfl x
theorem ldB (x : Reg) : Statement (.ldB x) := fun _ => packXKK_row (by decide) (by decide) rfl x
theorem dump (x : Reg) : Statement (.dump x) := fun _ => packXKK_row (by decide) (by decide) rfl x
theorem load (x : Reg) : Statement (.load x) := fun _ => packXKK_row (by decide) (by decide) rfl x

end Sys2Proof.Laws.FixedBits
end

