-- ==== Sys2Proof/Tests/Slice0.lean ====
section
/-! SUPPORT. Tests with expected results from spec/95_test_vectors.md (the vector's id stands in the name), words written
out from the patterns of 30_encoding R74, ill-formed terms, and a witness for the hypotheses of each obligation. -/

namespace Sys2Proof.Tests

open Sys2Proof.Machine

/-- The reset state with a word at `pc` and a host that answers "all keys up", the start state of 95_test_vectors. -/
def boot (w : Nat) : State := (State.reset.withSamples [0]).withFetchWord 16 w

/-- A machine that stands at the last legal fetch address with a word there. -/
def bootLast (w : Nat) : State := ((State.reset.withSamples [0]).setPc 4094).withFetchWord 16 w

/-- What a step gives, seen through a projection; none when it stops. -/
def after {α : Type} (s : State) (p : State → α) : Option α :=
  match step s with
  | .next t => some (p t)
  | .fault _ => none
  | .refused _ => none

/-- A register, `pc` and the flag after a step. -/
def regPcFlag (x : Reg) (t : State) : Byte × Word × Byte := (t.reg x, t.pc, t.reg 15)

/-- `fault`, `pc` and `last_opcode` after a step. -/
def faultPcLatch (t : State) : Option Fault × Word × Word := (t.fault, t.pc, t.lastOpcode)

/-! ### Well-formedness -/

theorem smoke_drw_height_16_is_ill_formed : (Instr.drw 1 2 16).wellFormed = false := by decide
theorem smoke_drw_height_15_is_well_formed : (Instr.drw 1 2 15).wellFormed = true := by decide

/-! ### Decoding: every constructor, its word written from its pattern -/

theorem decodes_control :
    decodeWord 0x00E0 = some .cls ∧ decodeWord 0x00EE = some .ret ∧ decodeWord 0x1234 = some (.jp 0x234) ∧
    decodeWord 0x2FFF = some (.call 0xFFF) ∧ decodeWord 0xB300 = some (.jpV0 0x300) := by decide

theorem decodes_skip :
    decodeWord 0x3105 = some (.seImm 1 0x05) ∧ decodeWord 0x4A06 = some (.sneImm 10 0x06) ∧
    decodeWord 0x5FE0 = some (.seReg 15 14) ∧ decodeWord 0x9120 = some (.sneReg 1 2) ∧
    decodeWord 0xEF9E = some (.skp 15) ∧ decodeWord 0xE0A1 = some (.sknp 0) := by decide

theorem decodes_alu :
    decodeWord 0x8120 = some (.ldReg 1 2) ∧ decodeWord 0x8341 = some (.orReg 3 4) ∧
    decodeWord 0x8562 = some (.andReg 5 6) ∧ decodeWord 0x8783 = some (.xorReg 7 8) ∧
    decodeWord 0x8124 = some (.addReg 1 2) ∧ decodeWord 0x89A5 = some (.subReg 9 10) ∧
    decodeWord 0x8BC6 = some (.shr 11 12) ∧ decodeWord 0x8DE7 = some (.subnReg 13 14) ∧
    decodeWord 0x8FFE = some (.shl 15 15) := by decide

theorem decodes_load :
    decodeWord 0x6A2C = some (.ldImm 10 0x2C) ∧ decodeWord 0x7102 = some (.addImm 1 0x02) ∧
    decodeWord 0xA2F0 = some (.ldI 0x2F0) ∧ decodeWord 0xF11E = some (.addI 1) ∧
    decodeWord 0xC10F = some (.rnd 1 0x0F) ∧ decodeWord 0xD12F = some (.drw 1 2 15) := by decide

theorem decodes_misc :
    decodeWord 0xF129 = some (.ldF 1) ∧ decodeWord 0xF233 = some (.ldB 2) ∧ decodeWord 0xF355 = some (.dump 3) ∧
    decodeWord 0xFF65 = some (.load 15) ∧ decodeWord 0xF007 = some (.ldVxDT 0) ∧ decodeWord 0xF50A = some (.ldVxK 5) ∧
    decodeWord 0xF615 = some (.ldDTVx 6) ∧ decodeWord 0xF718 = some (.ldSTVx 7) := by decide

/-- The unrecognised words of 95_test_vectors, family 9. -/
theorem rejects_family_9 :
    [0x0000, 0x00E1, 0x00FE, 0x01E0, 0x0123, 0x5121, 0x8008, 0x800F, 0x9001, 0xE000, 0xE09F, 0xF000, 0xF0FF, 0xF075,
      0xF085].map decodeWord = List.replicate 15 none := by decide

/-- The bytes are big-endian, and a single byte is no word. -/
theorem decodes_bytes :
    decode [0xA2, 0xF0, 0x12] = .instr (.ldI 0x2F0) [0x12] ∧ decode [0xF0] = .rejected .tooShort ∧
    encode (.ldI 0x2F0) = [0xA2, 0xF0] ∧ decodeTableWord 16 0xA2F0 = some (.ldI 0x2F0) := by decide

/-- The sizes of 00_scope R6 fit the font, the display and the key matrix. -/
theorem test_sizes_R6 : font.length = Config.fontBytes ∧ Config.dispW * Config.dispH = 2048 := by decide

/-! ### One step, by vector -/

theorem test_V1_1_cls : after ((boot 0x00E0).paint (Display.flip Display.blank 2047))
    (fun t => (Display.cell t.disp 2047, t.dirty, t.pc)) = some (false, true, 0x202) := by decide
theorem test_V1_4_ret : after (((boot 0x00EE).pushAt 1 0x204).pushAt 2 0x300) (fun t => (t.pc, t.sp, t.slot 2)) =
    some (0x302, 1, 0x300) := by decide
theorem test_V1_6_ret_underflow : after (boot 0x00EE) faultPcLatch = some (some .stackUnderflow, 0x200, 0) := by decide
theorem test_V1_3_call : after (boot 0x2300) (fun t => (t.pc, t.sp, t.slot 1, t.slot 0)) = some (0x300, 1, 0x200, 0) := by
  decide
theorem test_V1_7_call_overflow : after ((boot 0x2300).setSp 15) faultPcLatch =
    some (some .stackOverflow, 0x200, 0) := by decide
theorem test_V1_8_jp : after (boot 0x1234) State.pc = some 0x234 := by decide
theorem test_V1_10_jpV0 : after ((boot 0xBFFF).setReg 0 0xFF) State.pc = some 0x10FE := by decide

theorem test_V2_1_seImm : after ((boot 0x3105).setReg 1 5) State.pc = some 0x204 := by decide
theorem test_V2_2_seImm : after ((boot 0x3106).setReg 1 5) State.pc = some 0x202 := by decide
theorem test_V2_3_sneImm : after ((boot 0x4105).setReg 1 5) State.pc = some 0x202 := by decide
theorem test_V2_4_sneImm : after ((boot 0x4106).setReg 1 5) State.pc = some 0x204 := by decide
theorem test_V2_5_seReg : after (((boot 0x5120).setReg 1 5).setReg 2 5) State.pc = some 0x204 := by decide
theorem test_V2_7_sneReg : after (((boot 0x9120).setReg 1 5).setReg 2 5) State.pc = some 0x202 := by decide
theorem test_V2_8_sneReg : after (((boot 0x9120).setReg 1 5).setReg 2 6) State.pc = some 0x204 := by decide
theorem test_V2_10_skp : after (((boot 0xE19E).setReg 1 6).withSamples [0x0080]) State.pc = some 0x202 := by decide
theorem test_V2_13_skp_out_of_range : after ((boot 0xE19E).setReg 1 16) faultPcLatch =
    some (some (.keyOutOfRange 16), 0x200, 0) := by decide
theorem test_V2_11_sknp : after (((boot 0xE1A1).setReg 1 7).withSamples [0x0080]) State.pc = some 0x202 := by decide
theorem test_V2_12_sknp : after (((boot 0xE1A1).setReg 1 6).withSamples [0x0080]) State.pc = some 0x204 := by decide

theorem test_V3_1_addReg : after (((boot 0x8124).setReg 1 0xFF).setReg 2 1) (regPcFlag 1) = some (0, 0x202, 1) := by decide
theorem test_V3_2_addReg_flag_is_destination : after (((boot 0x8F14).setReg 15 0xF0).setReg 1 0x20) (regPcFlag 1) =
    some (0x20, 0x202, 1) := by decide
theorem test_V3_6_subReg : after (((boot 0x8125).setReg 1 5).setReg 2 10) (regPcFlag 1) = some (0xFB, 0x202, 0) := by decide
theorem test_V3_8_subReg_equal : after ((((boot 0x8125).setReg 1 7).setReg 2 7).setReg 15 1) (regPcFlag 1) =
    some (0, 0x202, 0) := by decide
theorem test_V3_11_subnReg : after (((boot 0x8127).setReg 1 5).setReg 2 10) (regPcFlag 1) = some (5, 0x202, 1) := by decide
theorem test_V3_12_subnReg : after (((boot 0x8127).setReg 1 10).setReg 2 5) (regPcFlag 1) = some (0xFB, 0x202, 0) := by
  decide
theorem test_V3_15_shr_ignores_y : after ((((boot 0x8126).setReg 1 4).setReg 2 0xFF).setReg 15 1) (regPcFlag 1) =
    some (2, 0x202, 0) := by decide
theorem test_V3_16_shr_flag_is_destination : after ((boot 0x8F06).setReg 15 3) (regPcFlag 15) = some (1, 0x202, 1) := by
  decide
theorem test_V3_17_shl : after ((boot 0x810E).setReg 1 0x81) (regPcFlag 1) = some (2, 0x202, 1) := by decide
theorem test_V3_18_shl_ignores_y : after ((((boot 0x812E).setReg 1 0x40).setReg 2 0xFF).setReg 15 1) (regPcFlag 1) =
    some (0x80, 0x202, 0) := by decide
theorem test_V3_20_ldReg : after ((boot 0x8120).setReg 2 0x7F) (regPcFlag 1) = some (0x7F, 0x202, 0) := by decide
theorem test_V3_21_orReg : after ((((boot 0x8121).setReg 1 0xF0).setReg 2 0x0F).setReg 15 1) (regPcFlag 1) =
    some (0xFF, 0x202, 1) := by decide
theorem test_V3_22_andReg : after (((boot 0x8122).setReg 1 0xF0).setReg 2 0x3C) (regPcFlag 1) = some (0x30, 0x202, 0) := by
  decide
theorem test_V3_23_xorReg : after (((boot 0x8123).setReg 1 0xF0).setReg 2 0x3C) (regPcFlag 1) = some (0xCC, 0x202, 0) := by
  decide
theorem test_V3_25_ldImm : after (boot 0x6A2C) (regPcFlag 10) = some (0x2C, 0x202, 0) := by decide
theorem test_V3_26_addImm_no_flag : after ((boot 0x7102).setReg 1 0xFF) (regPcFlag 1) = some (1, 0x202, 0) := by decide
theorem test_V3_28_ldI : after (boot 0xA2F0) (fun t => (t.I, t.lastOpcode)) = some (0x2F0, 0xA2F0) := by decide
theorem test_V3_29_addI : after (((boot 0xF11E).setI 0xFFE).setReg 1 5) State.I = some 0x1003 := by decide
theorem test_V3_30_addI_wraps : after (((boot 0xF11E).setI 0xFFFF).setReg 1 2) State.I = some 1 := by decide

/-- RND is over open functions: its two operations on the default ones are those of V4.1 and V4.5. -/
theorem test_V4_1_default_generator : defaultRngNext 1 = 0x00042021 ∧ defaultRngByte 0x00042021 = 0x21 := by decide
theorem test_V4_5_default_generator :
    defaultRngNext 0x92D68CA2 = 0x2B1F4D63 ∧ defaultRngNext 0x2B1F4D63 = 0x94DACB7A ∧
    defaultRngNext 0x94DACB7A = 0x7B0859A0 := by decide

/-- Rows 30, 31, 0, 1, 2 have columns 62, 63, 0, 1 or 62, 1 on, and no other row a cell. -/
theorem test_V5_2_drw_wraps : after ((((boot 0xD125).setReg 1 62).setReg 2 30)) (fun t =>
    (t.disp.toList, t.reg 15, t.dirty)) =
    some ([0x4000000000000002, 0x4000000000000002, 0xC000000000000003] ++ List.replicate 27 0 ++
      [0xC000000000000003, 0x4000000000000002], 0, true) := by decide
theorem test_V5_4_drw_collision : after ((boot 0xD121).paint (Display.flip (Display.flip Display.blank 0) 4)) (fun t =>
    ((List.range 8).filter (fun c => Display.cell t.disp (Fin.ofNat 2048 c)), t.reg 15)) = some ([1, 2, 3, 4], 1) := by decide

theorem test_V6_2_ldF : after ((boot 0xF129).setReg 1 0xFF) State.I = some 0x4FB := by decide
theorem test_V6_8_ldB : after (((boot 0xF133).setI 0x300).setReg 1 255) (fun t =>
    ([0x2FF, 0x300, 0x301, 0x302, 0x303].map t.mem.read, t.I)) = some ([0, 2, 5, 5, 0], 0x300) := by decide
theorem test_V6_10_ldB_all_or_nothing : after (((boot 0xF133).setI 4094).setReg 1 255) (fun t =>
    (t.fault, t.mem.read 4094, t.mem.read 4095, t.pc)) = some (some (.memOutOfRange 4096), 0, 0, 0x200) := by decide
theorem test_V6_12_dump : after (((((boot 0xF255).setI 0x400).setReg 0 0x10).setReg 1 0x11).setReg 2 0x12) (fun t =>
    ([0x3FF, 0x400, 0x401, 0x402, 0x403].map t.mem.read, t.I)) = some ([0, 0x10, 0x11, 0x12, 0], 0x400) := by decide
theorem test_V6_18_dump_over_the_font : after ((boot 0xF055).setReg 0 0xAA) (fun t =>
    (t.mem.read 0, t.mem.read 1)) = some (0xAA, 0x90) := by decide
theorem test_V6_19_load : after (boot 0xF465) (fun t => [0, 1, 2, 3, 4, 5].map t.reg) =
    some [0xF0, 0x90, 0x90, 0x90, 0xF0, 0] := by decide
theorem test_V6_21_load_all_or_nothing : after (((boot 0xF165).setI 4095).setReg 0 7) (fun t => (t.fault, t.reg 0)) =
    some (some (.memOutOfRange 4096), 7) := by decide

theorem test_V7_1_ldVxDT : after ((boot 0xF207).setDT 7) (fun t => (t.reg 2, t.DT)) = some (7, 6) := by decide
theorem test_V7_2_ldDTVx : after ((boot 0xF115).setReg 1 3) State.DT = some 2 := by decide
theorem test_V7_4_ldSTVx : after ((boot 0xF118).setReg 1 2) (fun t => (t.ST, t.port.events)) =
    some (1, [.returned true, .beep, .keySample]) := by decide
theorem test_V7_7_ldVxK_held : after ((((boot 0xF50A).setDT 5).setST 5).withSamples [0, 0, 0x0208]) (fun t =>
    (t.waiting, t.pc, t.DT, t.port.events)) = some (true, 0x200, 5, [.keySample]) := by decide
theorem test_V7_8_ldVxK : after ((boot 0xF50A).withSamples [0x0080]) (fun t => (t.reg 5, t.pc, t.waiting)) =
    some (7, 0x202, false) := by decide
theorem test_V7_11_unrecognised : after (((boot 0x0000).setDT 2).setST 2) (fun t =>
    (t.DT, t.ST, t.pc, t.port.events)) =
    some (1, 1, 0x202, [.returned false, .beep, .diag 0x0000, .keySample]) := by decide

/-- 95_test_vectors S2 with the default origin, and V8.4. -/
theorem test_S2_load_at_the_default_origin : (match applyHost (.load [0x12, 0x34] none) State.reset with
    | .next t => [0x1FF, 0x200, 0x201, 0x202].map t.mem.read
    | _ => []) = [0, 0x12, 0x34, 0] := by decide
theorem test_V8_4_load_size : (match applyHost (.load [1] (some 4096)) State.reset with
    | .next t => t.fault
    | _ => none) = some .loadSize := by decide

/-! ### Witnesses: concrete states that meet the hypotheses of each obligation, at the edges of their ranges -/

/-- A step held in a key wait: FX0A at `pc`, latched, no key down. -/
def held : State := (boot 0xF50A).latch 0xF50A |>.setWaiting true

theorem held_waits : held.HeldInKeyWait := ⟨⟨by decide, by decide⟩, by decide, by decide, 5, by decide⟩

theorem inv_not_waiting : (boot 0x2300).Inv ∧ (bootLast 0xF50A).Inv :=
  ⟨⟨by decide, by decide, by decide, by decide, fun h => absurd h (by decide)⟩,
   ⟨by decide, by decide, by decide, by decide, fun h => absurd h (by decide)⟩⟩

theorem inv_waiting : held.Inv := ⟨by decide, by decide, by decide, by decide, fun _ => held_waits⟩

theorem witness_ResetStateIsTheTableOfResetValues :
    State.reset.mem.read 79 = 0x80 ∧ State.reset.mem.read 80 = 0 ∧ State.reset.mem.read 4095 = 0 ∧
    keyDown State.reset.keys 15 = false ∧ State.reset.pixel 63 31 = false := by decide

theorem witness_StepKeepsInvariant :
    (∃ s t : State, s.Inv ∧ s.waiting = false ∧ step s = .next t) ∧ (∃ s t : State, s.Inv ∧ s.waiting = true ∧ step s = .next t) :=
  ⟨⟨boot 0x2300, _, inv_not_waiting.1, by decide, rfl⟩, ⟨held, _, inv_waiting, rfl, rfl⟩⟩

theorem witness_HostOperationsKeepInvariant :
    (∃ t, applyHost (.load [1, 2] (some 4094)) (boot 0x2300) = .next t) ∧ (∃ t, applyHost (.load [1] none) (boot 0x2300) = .next t) ∧
    (∃ t, applyHost .step held = .next t) ∧ (∃ t, applyHost .reset held = .next t) ∧
    (∃ t, applyHost (.writeKeys 3) (boot 0x2300) = .next t) ∧ (∃ t, applyHost (.seed 1) (boot 0x2300) = .next t) ∧
    (∃ t, applyHost .clearDirty (boot 0x2300) = .next t) :=
  ⟨⟨_, rfl⟩, ⟨_, rfl⟩, ⟨_, rfl⟩, ⟨_, rfl⟩, ⟨_, rfl⟩, ⟨_, rfl⟩, ⟨_, rfl⟩⟩

theorem witness_DecodingAnEncodedInstructionGivesItBack :
    (Instr.drw 15 15 15).wellFormed = true ∧ (Instr.jp 0xFFF).wellFormed = true := by decide

theorem witness_EncodingADecodedWordGivesItBack :
    decodeWord 0xDFFF = some (.drw 15 15 15) ∧ decodeWord 0x8FFE = some (.shl 15 15) := by decide

theorem witness_OpcodeWordSelectsItsOnlyRow :
    (∃ r ∈ opcodeRows, (0xF00A : Word) &&& r.mask = r.value) ∧ (∀ r ∈ opcodeRows, (0xF00B : Word) &&& r.mask ≠ r.value) := by
  decide

theorem witness_UnrecognisedWordsAreThoseOfTheTable :
    decodeWord 0x0FFF = none ∧ decodeWord 0x5001 = none ∧ decodeWord 0x800F = none ∧ decodeWord 0x900F = none ∧
    decodeWord 0xEFFF = none ∧ decodeWord 0xFFFF = none ∧ decodeWord 0x8000 ≠ none := by decide

theorem witness_FetchIsBigEndianAndLatched :
    (bootLast 0x6001).CanFetch ∧ ∃ t, step (bootLast 0x6001) = .next t ∧ t.fault = none :=
  ⟨⟨by decide, by decide⟩, _, rfl, by decide⟩

/-- One state for each clause: a completed instruction, a held key wait, a fault. -/
theorem witness_StepRunsTheDecodedInstruction :
    (∃ (s t : State) (i : Instr), s.CanFetch ∧ decode [s.mem.read s.pc.toNat, s.mem.read (s.pc.toNat + 1)] = .instr i [] ∧
      exec i (s.refresh.latch s.fetchWord) = .next t ∧ t.fault = none ∧ t.waiting = false) ∧
    (∃ (s t : State) (i : Instr), s.CanFetch ∧ decode [s.mem.read s.pc.toNat, s.mem.read (s.pc.toNat + 1)] = .instr i [] ∧
      exec i (s.refresh.latch s.fetchWord) = .next t ∧ t.fault = none ∧ t.waiting = true) ∧
    (∃ (s t : State) (i : Instr) (k : Fault), s.CanFetch ∧ decode [s.mem.read s.pc.toNat, s.mem.read (s.pc.toNat + 1)] = .instr i [] ∧
      exec i (s.refresh.latch s.fetchWord) = .next t ∧ t.fault = some k) :=
  ⟨⟨bootLast 0x6001, _, .ldImm 0 1, ⟨by decide, by decide⟩, by decide, rfl, by decide, by decide⟩,
   ⟨boot 0xF50A, _, .ldVxK 5, ⟨by decide, by decide⟩, by decide, rfl, by decide, by decide⟩,
   ⟨boot 0x00EE, _, .ret, .stackUnderflow, ⟨by decide, by decide⟩, by decide, rfl, by decide⟩⟩

theorem witness_EveryStepTakesOneFreeKeySample :
    (∃ s t, s.fault = none ∧ step s = .next t) ∧ (∃ s : State, ∃ ks rest, s.port.samples = ks :: rest ∧ ks = 0xFFFF) :=
  ⟨⟨boot 0x6001, _, by decide, rfl⟩, ⟨(boot 0x6001).withSamples [0xFFFF, 1], _, _, rfl, rfl⟩⟩

theorem witness_FetchAbove4094Faults :
    ((boot 0).setPc 4095).fault = none ∧ 4094 < ((boot 0).setPc 4095).pc.toNat := by decide

theorem witness_UnrecognisedWordAdvancesTicksAndReports :
    (bootLast 0x0000).CanFetch ∧ decodeWord (bootLast 0x0000).fetchWord = none :=
  ⟨⟨by decide, by decide⟩, by decide⟩

theorem witness_FaultIsStickyAndChangesNothingElse :
    (∃ s t k, s.fault = none ∧ step s = .next t ∧ t.fault = some k) ∧
    ∃ k, (((boot 0x00EE).raise .stackUnderflow).fault = some k) :=
  ⟨⟨boot 0x00EE, _, .stackUnderflow, by decide, rfl, by decide⟩, _, rfl⟩

/-- Each fault the obligation lists is raised by some instruction. -/
theorem witness_InstructionsFaultOnlyAsListed :
    (∃ s t, s.fault = none ∧ exec (.call 0) s = .next t ∧ t.fault = some .stackOverflow) ∧
    (∃ s t, s.fault = none ∧ exec .ret s = .next t ∧ t.fault = some .stackUnderflow) ∧
    (∃ s t, s.fault = none ∧ exec (.skp 1) s = .next t ∧ t.fault = some (.keyOutOfRange 16)) ∧
    (∃ s t, s.fault = none ∧ exec (.drw 0 0 2) s = .next t ∧ t.fault = some (.memOutOfRange 4096)) ∧
    (∃ s t, s.fault = none ∧ exec (.ldB 0) s = .next t ∧ t.fault = some (.memOutOfRange 4096)) ∧
    (∃ s t, s.fault = none ∧ exec (.load 1) s = .next t ∧ t.fault = some (.memOutOfRange 4096)) :=
  ⟨⟨(boot 0).setSp 15, _, by decide, rfl, by decide⟩, ⟨boot 0, _, by decide, rfl, by decide⟩,
   ⟨(boot 0).setReg 1 16, _, by decide, rfl, by decide⟩, ⟨(boot 0).setI 4095, _, by decide, rfl, by decide⟩,
   ⟨(boot 0).setI 4094, _, by decide, rfl, by decide⟩, ⟨(boot 0).setI 4095, _, by decide, rfl, by decide⟩⟩

theorem witness_CompletedStepTicksOnce :
    (∃ s t i, s.CanFetch ∧ decodeWord s.fetchWord = some i ∧ (∀ x, i ≠ .ldDTVx x) ∧ (∀ x, i ≠ .ldSTVx x) ∧
      step s = .next t ∧ t.fault = none ∧ t.waiting = false ∧ s.DT = 1 ∧ s.ST = 0) :=
  ⟨(boot 0x6001).setDT 1, _, .ldImm 0 1, ⟨by decide, by decide⟩, by decide, by simp, by simp, rfl, by decide, by decide,
    by decide, by decide⟩

theorem witness_TimerSetIsTickedInItsOwnStep :
    ((boot 0xF115).CanFetch ∧ decodeWord (boot 0xF115).fetchWord = some (.ldDTVx 1)) ∧
    ((boot 0xF118).CanFetch ∧ decodeWord (boot 0xF118).fetchWord = some (.ldSTVx 1)) :=
  ⟨⟨⟨by decide, by decide⟩, by decide⟩, ⟨⟨by decide, by decide⟩, by decide⟩⟩

theorem witness_MachineWithoutFaultAlwaysSteps : (boot 0x1200).fault = none := by decide

theorem witness_ReturnReadsSlotThenDecrements : (boot 0).sp = 0 ∧ ((boot 0).setSp 15).sp ≠ 0 := by decide

theorem witness_CallSavesItsOwnAddress :
    ((boot 0).setSp 15).sp = 15 ∧ ((boot 0).setSp 14).sp ≠ 15 ∧ (0 : Fin 16) ≠ ((boot 0).pushAt 15 7).sp := by decide

theorem witness_ReturnUndoesCall : ((boot 0).setSp 14).sp ≠ 15 ∧
    ∃ t t' : State, exec (.call 0x300) ((boot 0).setSp 14) = .next t ∧ t'.stack = t.stack ∧ t'.sp = t.sp :=
  ⟨by decide, _, _, rfl, rfl, rfl⟩

theorem witness_SkipsOnImmediateComparison : ((boot 0).setReg 1 5).reg 1 = 5 ∧ ((boot 0).setReg 1 5).reg 1 ≠ 6 := by decide

theorem witness_SkipsOnRegisterComparison :
    ((boot 0).setReg 1 5).reg 1 = ((boot 0).setReg 1 5).reg 1 ∧ ((boot 0).setReg 1 5).reg 1 ≠ ((boot 0).setReg 1 5).reg 2 := by
  decide

theorem witness_SkipsOnKeyState :
    (((boot 0).setReg 1 15).reg 1).toNat ≤ 15 ∧ 15 < (((boot 0).setReg 1 16).reg 1).toNat ∧
    ((boot 0).setKeys 0x8000).keys.getLsbD 15 = true ∧ ((boot 0).setKeys 0x7FFF).keys.getLsbD 15 = false := by decide

theorem witness_SkipPairsAreComplements :
    (∃ t u, exec (.seImm 1 5) (boot 0) = .next t ∧ exec (.sneImm 1 5) (boot 0) = .next u) ∧
    (∃ t u, exec (.seReg 1 2) (boot 0) = .next t ∧ exec (.sneReg 1 2) (boot 0) = .next u) ∧
    (((boot 0).setReg 1 15).reg 1).toNat ≤ 15 ∧ ∃ t u, exec (.skp 1) ((boot 0).setReg 1 15) = .next t ∧
      exec (.sknp 1) ((boot 0).setReg 1 15) = .next u :=
  ⟨⟨_, _, rfl, rfl⟩, ⟨_, _, rfl, rfl⟩, by decide, _, _, rfl, rfl⟩

/-- Of the flag writers both forms exist: a destination that is not `VF`, and `VF`. -/
theorem witness_FlagWriters : (14 : Reg) ≠ 15 ∧ ∃ t, exec (.addReg 15 14) (boot 0) = .next t ∧ t.fault = none :=
  ⟨by decide, _, rfl, by decide⟩

theorem witness_SpriteDrawFlipsCoveredCells :
    (0 < 2 ∧ 4095 < ((boot 0).setI 4095).I.toNat + 2 - 1) ∧ ¬(0 < 1 ∧ 4095 < ((boot 0).setI 4095).I.toNat + 1 - 1) ∧
    ¬(0 < 0 ∧ 4095 < ((boot 0).setI 0xFFFF).I.toNat + 0 - 1) ∧ SpriteCovers (boot 0) 62 30 5 1982 ∧
    ¬SpriteCovers (boot 0) 62 30 5 100 := by
  refine ⟨by decide, by decide, by decide, ⟨0, by decide, 0, by decide, by decide, by decide⟩, ?_⟩
  rintro ⟨r, hr, c, hc, -, h⟩
  have h' : 100 = (30 + r) % 32 * 64 + (62 + c) % 64 := h
  omega

theorem witness_DrawingTwiceRestoresTheDisplay : (boot 0).fault = none ∧
    ∃ t u, exec (.drw 1 2 5) (boot 0) = .next t ∧ t.fault = none ∧ t.reg 1 = (boot 0).reg 1 ∧ t.reg 2 = (boot 0).reg 2 ∧
      exec (.drw 1 2 5) t = .next u ∧ SpriteCovers (boot 0) 0 0 5 0 ∧ Display.cell (boot 0).disp 0 = false :=
  ⟨by decide, _, _, rfl, by decide, by decide, by decide, rfl, ⟨0, by decide, 0, by decide, by decide, by decide⟩, by decide⟩

theorem witness_BcdStoreWritesThreeDigits : (boot 0).mem.wf = true ∧
    4095 < ((boot 0).setI 4094).I.toNat + 2 ∧ ((boot 0).setI 4093).I.toNat + 2 ≤ 4095 := by decide

theorem witness_RegisterDumpStoresInOrder : (boot 0).mem.wf = true ∧
    4095 < ((boot 0).setI 4081).I.toNat + (15 : Reg).val ∧ ((boot 0).setI 4080).I.toNat + (15 : Reg).val ≤ 4095 := by decide

theorem witness_RegisterLoadReadsInOrder :
    4095 < ((boot 0).setI 4096).I.toNat + (0 : Reg).val ∧ ((boot 0).setI 4095).I.toNat + (0 : Reg).val ≤ 4095 := by decide

theorem witness_DumpThenLoadRestoresRegisters : ((boot 0).setI 4080).mem.wf = true ∧
    ((boot 0).setI 4080).I.toNat + (15 : Reg).val ≤ 4095 ∧
    ∃ t t' : State, exec (.dump 15) ((boot 0).setI 4080) = .next t ∧
      (∀ k : Reg, k ≤ 15 → t'.mem.read (4080 + k.val) = t.mem.read (4080 + k.val)) ∧ t'.I = ((boot 0).setI 4080).I :=
  ⟨by decide, by decide, _, _, rfl, fun _ _ => rfl, rfl⟩

theorem witness_KeyWaitTakesTheLeastKeyDown :
    (∀ j < 3, ((boot 0).setKeys 0x0208).keys.getLsbD j = false) ∧ ((boot 0).setKeys 0x0208).keys.getLsbD 3 = true ∧
    ((boot 0).setKeys 0x8000).keys.getLsbD 15 = true ∧ (∀ j < 15, ((boot 0).setKeys 0x8000).keys.getLsbD j = false) ∧
    (boot 0).keys = 0 := by decide

theorem witness_KeyWaitEndsAtTheFirstSampleWithAKey :
    ((boot 0xF50A).withSamples [0, 0, 0x0208, 1]).CanFetch ∧
    decodeWord ((boot 0xF50A).withSamples [0, 0, 0x0208, 1]).fetchWord = some (.ldVxK 5) ∧
    ((boot 0xF50A).withSamples [0, 0, 0x0208, 1]).port.samples = List.replicate 2 0 ++ 0x0208 :: [1] ∧
    (0x0208 : Keys).getLsbD 3 = true ∧ ∀ m < 3, (0x0208 : Keys).getLsbD m = false :=
  ⟨⟨by decide, by decide⟩, by decide, by decide, by decide, by decide⟩

theorem witness_EachElementHasOnlyItsWriters :
    (∃ t, exec (.ldImm 1 2) (boot 0) = .next t) ∧ ((boot 0).paint Display.blank).dirty = true := ⟨⟨_, rfl⟩, rfl⟩

theorem witness_FlagRegisterHasSixSideEffectWriters :
    (∃ t, exec (.drw 1 2 0) (boot 0) = .next t ∧ t.fault = none) ∧
    (∃ t, exec (.ldImm 14 2) (boot 0) = .next t ∧ t.fault = none) ∧ (boot 0).fault = none :=
  ⟨⟨_, rfl, by decide⟩, ⟨_, rfl, by decide⟩, by decide⟩

theorem witness_LatchAndGeneratorDoNotInfluenceOtherInstructions : ∃ t, exec (.skp 1) (boot 0) = .next t := ⟨_, rfl⟩

theorem witness_StoreIsSeenByTheNextFetch :
    ((boot 0xF155).setI 0x202).CanFetch ∧ ((boot 0xF155).setI 0x202).mem.wf = true ∧
    decodeWord ((boot 0xF155).setI 0x202).fetchWord = some (.dump 1) ∧
    ((boot 0xF155).setI 0x202).I = ((boot 0xF155).setI 0x202).pc + 2 ∧
    ((boot 0xF155).setI 0x202).I.toNat + (1 : Reg).val ≤ 4095 :=
  ⟨⟨by decide, by decide⟩, by decide, by decide, by decide, by decide⟩

theorem witness_HostLoadPlacesBytesVerbatim : (boot 0).mem.wf = true ∧ (boot 0).waiting = false ∧
    (some 4096 = some 4096 ∨ (some 4096 = none ∧ 4096 = 512)) ∧
    ((none : Option Nat) = some 512 ∨ ((none : Option Nat) = none ∧ 512 = 512)) ∧
    (4096 ≤ 4096 ∧ ([] : List Byte).length ≤ 4096 - 4096) ∧ (4095 ≤ 4096 ∧ [(1 : Byte)].length ≤ 4096 - 4095) ∧
    ¬(4096 ≤ 4096 ∧ [(1 : Byte)].length ≤ 4096 - 4096) ∧ ¬(4097 ≤ 4096 ∧ ([] : List Byte).length ≤ 4096 - 4097) := by decide

theorem witness_HostSeedKeysAndDirtyWriteOneElement : (boot 0).waiting = false := by decide

theorem witness_OnlyResetIsAppliedInsideAKeyWait :
    held.waiting = true ∧ HostOp.clearDirty ≠ .step ∧ HostOp.clearDirty ≠ .reset ∧ HostOp.reset ≠ .step := by decide

theorem witness_RunIsSafeExactlyWhenItsLastStateIs :
    (∃ t : State, Host.Core.run Sys2Proof.core 1 (boot 0x6001) = Host.Outcome.next t ∧ t.fault = none) ∧
    (∃ t : State, Host.Core.run Sys2Proof.core 1 (boot 0x00EE) = Host.Outcome.next t ∧ t.fault ≠ none) :=
  ⟨⟨_, rfl, by decide⟩, ⟨_, rfl, by decide⟩⟩

end Sys2Proof.Tests
end

section
/-! SUPPORT. What one instruction can do, said once: each fault with its condition, then the effect of each kind of
instruction (41_control to 47_timer_key, 60_exceptions R210), and the lemma that `exec` gives one of these effects. -/

namespace Sys2Proof

/-- The instructions whose only effect is on one register `x`, the destination, beside `pc` (R130 to R133, R139, R140,
R180). -/
inductive Instr.WritesReg : Instr → Reg → Prop
  | ldImm (x : Reg) (nn : Byte) : WritesReg (.ldImm x nn) x
  | addImm (x : Reg) (nn : Byte) : WritesReg (.addImm x nn) x
  | ldReg (x y : Reg) : WritesReg (.ldReg x y) x
  | orReg (x y : Reg) : WritesReg (.orReg x y) x
  | andReg (x y : Reg) : WritesReg (.andReg x y) x
  | xorReg (x y : Reg) : WritesReg (.xorReg x y) x
  | ldVxDT (x : Reg) : WritesReg (.ldVxDT x) x

/-- The instructions that write a register `x` and then the flag (R134 to R138). -/
inductive Instr.WritesRegFlag : Instr → Reg → Prop
  | addReg (x y : Reg) : WritesRegFlag (.addReg x y) x
  | subReg (x y : Reg) : WritesRegFlag (.subReg x y) x
  | subnReg (x y : Reg) : WritesRegFlag (.subnReg x y) x
  | shr (x y : Reg) : WritesRegFlag (.shr x y) x
  | shl (x y : Reg) : WritesRegFlag (.shl x y) x

/-- The instructions whose only effect is on `I`, beside `pc` (R141, R142, R170). -/
inductive Instr.WritesIndex : Instr → Prop
  | ldI (nnn : Addr12) : WritesIndex (.ldI nnn)
  | addI (x : Reg) : WritesIndex (.addI x)
  | ldF (x : Reg) : WritesIndex (.ldF x)

/-- The instructions whose only effect is on `pc`: jumps and skips (R112, R114, R120 to R125). -/
inductive Instr.WritesPcOnly : Instr → Prop
  | jp (nnn : Addr12) : WritesPcOnly (.jp nnn)
  | jpV0 (nnn : Addr12) : WritesPcOnly (.jpV0 nnn)
  | seImm (x : Reg) (nn : Byte) : WritesPcOnly (.seImm x nn)
  | sneImm (x : Reg) (nn : Byte) : WritesPcOnly (.sneImm x nn)
  | seReg (x y : Reg) : WritesPcOnly (.seReg x y)
  | sneReg (x y : Reg) : WritesPcOnly (.sneReg x y)
  | skp (x : Reg) : WritesPcOnly (.skp x)
  | sknp (x : Reg) : WritesPcOnly (.sknp x)

namespace Machine

/-- `Raises s i k`: the instruction `i` takes the fault `k` in the state `s` (60_exceptions R210). -/
inductive Raises (s : State) : Instr → Fault → Prop
  | ret (h : s.sp = 0) : Raises s .ret .stackUnderflow
  | call (nnn : Addr12) (h : s.sp = 15) : Raises s (.call nnn) .stackOverflow
  | skp (x : Reg) (h : 15 < (s.reg x).toNat) : Raises s (.skp x) (.keyOutOfRange (s.reg x))
  | sknp (x : Reg) (h : 15 < (s.reg x).toNat) : Raises s (.sknp x) (.keyOutOfRange (s.reg x))
  | drw (x y : Reg) (n : Nat) (h : ¬(n = 0 ∨ s.I.toNat + n ≤ 4096)) :
      Raises s (.drw x y n) (.memOutOfRange (max s.I.toNat 4096))
  | ldB (x : Reg) (h : ¬s.I.toNat + 2 ≤ 4095) : Raises s (.ldB x) (.memOutOfRange (max s.I.toNat 4096))
  | dump (x : Reg) (h : ¬s.I.toNat + x.val ≤ 4095) : Raises s (.dump x) (.memOutOfRange (max s.I.toNat 4096))
  | load (x : Reg) (h : ¬s.I.toNat + x.val ≤ 4095) : Raises s (.load x) (.memOutOfRange (max s.I.toNat 4096))

/-- `Effect s i t`: the instruction `i` leaves `t` when it is executed in `s`. A value that no later proof needs is left
open; a jump or skip from a legal `pc` stays at most at 4350 (10_state R24). The registers after LD Vx, [I] are given by an
equation, so that a frame proved by `rfl` does not compute them. -/
inductive Effect (s : State) : Instr → State → Prop
  | fault {i : Instr} {k : Fault} (h : Raises s i k) : Effect s i (s.raise k)
  | jump {i : Instr} {w : Word} (h : i.WritesPcOnly) (hw : s.pc.toNat ≤ 4094 → w.toNat ≤ 4350) : Effect s i (s.setPc w)
  | result {i : Instr} {x : Reg} (b : Byte) (h : i.WritesReg x) : Effect s i (s.result x b)
  | resultFlag {i : Instr} {x : Reg} (b : Byte) (f : Bool) (h : i.WritesRegFlag x) : Effect s i (s.resultFlag x b f)
  | index {i : Instr} (w : Word) (h : i.WritesIndex) : Effect s i (s.setI w).advance
  | cls : Effect s .cls (s.paint Display.blank).advance
  | ret (h : s.sp ≠ 0) : Effect s .ret ((s.setPc (s.slot s.sp + 2)).setSp (s.sp - 1))
  | call (nnn : Addr12) (h : s.sp ≠ 15) : Effect s (.call nnn) ((s.pushAt (s.sp + 1) s.pc).setPc (zext16 nnn))
  | rnd (x : Reg) (nn : Byte) : Effect s (.rnd x nn) (s.rngAdvanced.setReg x (s.maskedByte nn)).advance
  | drw (x y : Reg) (n : Nat) (h : n = 0 ∨ s.I.toNat + n ≤ 4096) :
      Effect s (.drw x y n) ((s.paint (s.drawn x y n).disp).setFlag (s.drawn x y n).hit).advance
  | ldDTVx (x : Reg) : Effect s (.ldDTVx x) (s.setDT (s.reg x)).advance
  | ldSTVx (x : Reg) : Effect s (.ldSTVx x) (s.setST (s.reg x)).advance
  | ldB (x : Reg) (h : s.I.toNat + 2 ≤ 4095) : Effect s (.ldB x) (s.setMem (s.stored (bcdDigits (s.reg x)))).advance
  | dump (x : Reg) (h : s.I.toNat + x.val ≤ 4095) : Effect s (.dump x) (s.setMem (s.stored (s.regsUpTo x))).advance
  | load (x : Reg) {v : Vector Byte 16} (h : s.I.toNat + x.val ≤ 4095) (hv : v = s.regsLoaded x) :
      Effect s (.load x) (s.setV v).advance
  | keyTaken (x : Reg) {k : Nat} (h : leastKeyDown s.keys = some k) :
      Effect s (.ldVxK x) ((s.setReg x (BitVec.ofNat 8 k)).setWaiting false).advance
  | held (x : Reg) (h : s.keys = 0) : Effect s (.ldVxK x) (s.setWaiting true)

/-- Each fault of the list is taken under its condition, and nothing else changes (60_exceptions R211). -/
theorem exec_raises {s : State} {i : Instr} {k : Fault} (h : Raises s i k) : exec i s = .next (s.raise k) := by
  cases h with
  | ret h => simp only [exec, execRet, if_pos h]
  | call nnn h => simp only [exec, execCall, if_pos h]
  | skp x h => simp only [exec, execSkp, State.skipOnKey, if_pos h]
  | sknp x h => simp only [exec, execSknp, State.skipOnKey, if_pos h]
  | drw x y n h => simp only [exec, execDrw, access_outside h]
  | ldB x h => simp only [exec, execLdB, access_outside (n := 3) (s := s) (by omega)]
  | dump x h => simp only [exec, execDump, access_outside (n := x.val + 1) (s := s) (by omega)]
  | load x h => simp only [exec, execLoad, access_outside (n := x.val + 1) (s := s) (by omega)]

/-- A skip from a legal `pc` ends at most at 4098. -/
theorem skip_pc_le {s : State} {c : Prop} [Decidable c] (h : s.pc.toNat ≤ 4094) :
    (if c then s.pc + 4 else s.pc + 2).toNat ≤ 4350 := by
  split <;> bv_omega

/-- The highest jump target is 4095 plus 255 (41_control R114). -/
theorem zext16_add_zextByte_le (nnn : Addr12) (b : Byte) : (zext16 nnn + zextByte b).toNat ≤ 4350 := by
  rw [BitVec.toNat_add, zext16_toNat, zextByte_toNat]
  omega

/-- Every instruction has an effect of its kind. -/
theorem effect_exists (i : Instr) (s : State) : ∃ t, exec i s = .next t ∧ Effect s i t := by
  cases i with
  | cls => exact ⟨_, rfl, .cls⟩
  | ret =>
    by_cases h : s.sp = 0
    · exact ⟨_, exec_raises (.ret h), .fault (.ret h)⟩
    · exact ⟨_, exec_ret h, .ret h⟩
  | jp nnn => exact ⟨_, rfl, .jump (.jp nnn) fun _ => by rw [zext16_toNat]; omega⟩
  | call nnn =>
    by_cases h : s.sp = 15
    · exact ⟨_, exec_raises (.call nnn h), .fault (.call nnn h)⟩
    · exact ⟨_, exec_call h, .call nnn h⟩
  | seImm x nn => exact ⟨_, rfl, .jump (.seImm x nn) skip_pc_le⟩
  | sneImm x nn => exact ⟨_, rfl, .jump (.sneImm x nn) skip_pc_le⟩
  | seReg x y => exact ⟨_, rfl, .jump (.seReg x y) skip_pc_le⟩
  | sneReg x y => exact ⟨_, rfl, .jump (.sneReg x y) skip_pc_le⟩
  | ldImm x nn => exact ⟨_, rfl, .result _ (.ldImm x nn)⟩
  | addImm x nn => exact ⟨_, rfl, .result _ (.addImm x nn)⟩
  | ldReg x y => exact ⟨_, rfl, .result _ (.ldReg x y)⟩
  | orReg x y => exact ⟨_, rfl, .result _ (.orReg x y)⟩
  | andReg x y => exact ⟨_, rfl, .result _ (.andReg x y)⟩
  | xorReg x y => exact ⟨_, rfl, .result _ (.xorReg x y)⟩
  | addReg x y => exact ⟨_, rfl, .resultFlag _ _ (.addReg x y)⟩
  | subReg x y => exact ⟨_, rfl, .resultFlag _ _ (.subReg x y)⟩
  | shr x y => exact ⟨_, rfl, .resultFlag _ _ (.shr x y)⟩
  | subnReg x y => exact ⟨_, rfl, .resultFlag _ _ (.subnReg x y)⟩
  | shl x y => exact ⟨_, rfl, .resultFlag _ _ (.shl x y)⟩
  | ldI nnn => exact ⟨_, rfl, .index _ (.ldI nnn)⟩
  | jpV0 nnn => exact ⟨_, rfl, .jump (.jpV0 nnn) fun _ => zext16_add_zextByte_le nnn _⟩
  | rnd x nn => exact ⟨_, rfl, .rnd x nn⟩
  | drw x y n =>
    by_cases h : n = 0 ∨ s.I.toNat + n ≤ 4096
    · exact ⟨_, exec_drw h, .drw x y n h⟩
    · exact ⟨_, exec_raises (.drw x y n h), .fault (.drw x y n h)⟩
  | skp x =>
    by_cases h : 15 < (s.reg x).toNat
    · exact ⟨_, exec_raises (.skp x h), .fault (.skp x h)⟩
    · exact ⟨_, exec_skp (Nat.not_lt.1 h), .jump (.skp x) skip_pc_le⟩
  | sknp x =>
    by_cases h : 15 < (s.reg x).toNat
    · exact ⟨_, exec_raises (.sknp x h), .fault (.sknp x h)⟩
    · exact ⟨_, exec_sknp (Nat.not_lt.1 h), .jump (.sknp x) skip_pc_le⟩
  | ldVxDT x => exact ⟨_, rfl, .result _ (.ldVxDT x)⟩
  | ldVxK x =>
    cases h : leastKeyDown s.keys with
    | some k => exact ⟨_, exec_ldVxK h, .keyTaken x h⟩
    | none => exact ⟨_, exec_ldVxK_held h, .held x (leastKeyDown_eq_none.1 h)⟩
  | ldDTVx x => exact ⟨_, rfl, .ldDTVx x⟩
  | ldSTVx x => exact ⟨_, rfl, .ldSTVx x⟩
  | addI x => exact ⟨_, rfl, .index _ (.addI x)⟩
  | ldF x => exact ⟨_, rfl, .index _ (.ldF x)⟩
  | ldB x =>
    by_cases h : s.I.toNat + 2 ≤ 4095
    · exact ⟨_, exec_ldB h, .ldB x h⟩
    · exact ⟨_, exec_raises (.ldB x h), .fault (.ldB x h)⟩
  | dump x =>
    by_cases h : s.I.toNat + x.val ≤ 4095
    · exact ⟨_, exec_dump h, .dump x h⟩
    · exact ⟨_, exec_raises (.dump x h), .fault (.dump x h)⟩
  | load x =>
    by_cases h : s.I.toNat + x.val ≤ 4095
    · exact ⟨_, exec_load h, .load x h rfl⟩
    · exact ⟨_, exec_raises (.load x h), .fault (.load x h)⟩

/-- The inversion of `exec`: what it leaves is an effect of the instruction's kind. -/
theorem effect_of_exec {i : Instr} {s t : State} (h : exec i s = .next t) : Effect s i t := by
  obtain ⟨u, hu, he⟩ := effect_exists i s
  rw [hu] at h
  exact Host.Outcome.next.inj h ▸ he

end Machine
end Sys2Proof
end

section
/-! SUPPORT. The frame of one instruction, element by element: which instructions may write it (10_state R35). -/

namespace Sys2Proof.Machine

section
variable {i : Instr} {s t : State} (he : Effect s i t)
include he

theorem Effect.keys_eq : t.keys = s.keys := by cases he <;> rfl

theorem Effect.lastOpcode_eq : t.lastOpcode = s.lastOpcode := by cases he <;> rfl

theorem Effect.port_eq : t.port = s.port := by cases he <;> rfl

/-- No instruction clears `dirty` (10_state R29). -/
theorem Effect.dirty_of_dirty (h : s.dirty = true) : t.dirty = true := by
  cases he with
  | cls => rfl
  | drw x y n => rfl
  | _ => exact h

theorem Effect.DT_eq (h : ∀ x, i ≠ .ldDTVx x) : t.DT = s.DT := by
  cases he with
  | ldDTVx x => exact absurd rfl (h x)
  | _ => rfl

theorem Effect.ST_eq (h : ∀ x, i ≠ .ldSTVx x) : t.ST = s.ST := by
  cases he with
  | ldSTVx x => exact absurd rfl (h x)
  | _ => rfl

theorem Effect.rng_eq (h : ∀ x nn, i ≠ .rnd x nn) : t.rng = s.rng := by
  cases he with
  | rnd x nn => exact absurd rfl (h x nn)
  | _ => rfl

theorem Effect.stack_eq (h : ∀ nnn, i ≠ .call nnn) : t.stack = s.stack := by
  cases he with
  | call nnn => exact absurd rfl (h nnn)
  | _ => rfl

theorem Effect.sp_eq (hr : i ≠ .ret) (hc : ∀ nnn, i ≠ .call nnn) : t.sp = s.sp := by
  cases he with
  | ret => exact absurd rfl hr
  | call nnn => exact absurd rfl (hc nnn)
  | _ => rfl

theorem Effect.disp_eq (hc : i ≠ .cls) (hd : ∀ x y n, i ≠ .drw x y n) : t.disp = s.disp := by
  cases he with
  | cls => exact absurd rfl hc
  | drw x y n => exact absurd rfl (hd x y n)
  | _ => rfl

theorem Effect.dirty_eq (hc : i ≠ .cls) (hd : ∀ x y n, i ≠ .drw x y n) : t.dirty = s.dirty := by
  cases he with
  | cls => exact absurd rfl hc
  | drw x y n => exact absurd rfl (hd x y n)
  | _ => rfl

theorem Effect.mem_eq (hb : ∀ x, i ≠ .ldB x) (hd : ∀ x, i ≠ .dump x) : t.mem = s.mem := by
  cases he with
  | ldB x => exact absurd rfl (hb x)
  | dump x => exact absurd rfl (hd x)
  | _ => rfl

theorem Effect.I_eq (hl : ∀ nnn, i ≠ .ldI nnn) (ha : ∀ x, i ≠ .addI x) (hf : ∀ x, i ≠ .ldF x) : t.I = s.I := by
  cases he with
  | index w h =>
    cases h with
    | ldI nnn => exact absurd rfl (hl nnn)
    | addI x => exact absurd rfl (ha x)
    | ldF x => exact absurd rfl (hf x)
  | _ => rfl

theorem Effect.waiting_eq (h : ∀ x, i ≠ .ldVxK x) : t.waiting = s.waiting := by
  cases he with
  | keyTaken x => exact absurd rfl (h x)
  | held x => exact absurd rfl (h x)
  | _ => rfl

/-- An instruction either takes a fault, which is then all it does, or leaves `fault` as it is (60_exceptions R211). -/
theorem Effect.raises_or_fault_eq : (∃ k, Raises s i k ∧ t = s.raise k) ∨ t.fault = s.fault := by
  cases he with
  | fault h => exact .inl ⟨_, h, rfl⟩
  | _ => exact .inr rfl

/-- What starts a key wait: LD Vx, K with no key down, which writes nothing else (40_step_cycle R99). -/
theorem Effect.held_of_waiting (hs : s.waiting = false) (ht : t.waiting = true) :
    ∃ x, i = .ldVxK x ∧ s.keys = 0 ∧ t = s.setWaiting true := by
  cases he with
  | held x h => exact ⟨x, rfl, h, rfl⟩
  | keyTaken x h => exact absurd ht Bool.false_ne_true
  | _ => exact absurd (hs.symm.trans ht) Bool.false_ne_true

end

/-- LD Vx, K takes no fault (47_timer_key R182). -/
theorem Effect.fault_eq_of_ldVxK {s t : State} {x : Reg} (he : Effect s (.ldVxK x) t) : t.fault = s.fault := by
  obtain ⟨k, h, -⟩ | h := he.raises_or_fault_eq
  · nomatch h
  · exact h

/-- Settles O50: each element's frame lemma, over the effect of the instruction. -/
theorem eachElementHasOnlyItsWriters : Obligations.EachElementHasOnlyItsWriters := by
  intro i s t h
  have he := effect_of_exec h
  exact ⟨he.keys_eq, he.lastOpcode_eq, he.port_eq, he.dirty_of_dirty, he.DT_eq, he.ST_eq, he.rng_eq,
    fun hr hc => ⟨he.stack_eq hc, he.sp_eq hr hc⟩, fun hc hd => ⟨he.disp_eq hc hd, he.dirty_eq hc hd⟩,
    fun hb hd a => congrArg (·.read a) (he.mem_eq hb hd), he.I_eq, he.waiting_eq⟩

end Sys2Proof.Machine
end

section
/-! SUPPORT. How a step ends: a fault undoes the instruction, a key wait is left as it is, a completed step ticks
(40_step_cycle R97 to R99, 60_exceptions R211). Then what a faulting step is (10_state R34). -/

namespace Sys2Proof.Machine

/-- Everything the end of a step can be. -/
theorem settle_cases (b : State) (r : Bool) (a : State) :
    (∃ k, a.fault = some k ∧ b.settle r a = b.raise k) ∨
    (a.fault = none ∧ a.waiting = true ∧ b.settle r a = a) ∨
    (a.fault = none ∧ a.waiting = false ∧ b.settle r a = a.timerTick.emit (.returned r)) := by
  cases hf : a.fault with
  | some k => exact .inl ⟨k, rfl, settle_fault hf⟩
  | none =>
    cases hw : a.waiting with
    | true => exact .inr (.inl ⟨rfl, rfl, settle_waiting hf hw⟩)
    | false => exact .inr (.inr ⟨rfl, rfl, settle_done hf hw⟩)

@[simp] theorem timerTick_fault (s : State) : s.timerTick.fault = s.fault := by rw [timerTick_eq]

@[simp] theorem timerTick_waiting (s : State) : s.timerTick.waiting = s.waiting := by rw [timerTick_eq]

/-- A step that ends with a fault leaves the state after the refresh, with the fault set. -/
theorem settle_eq_raise_of_fault {b a : State} {r : Bool} {k : Fault} (h : (b.settle r a).fault = some k) :
    b.settle r a = b.raise k := by
  obtain ⟨k', -, hs⟩ | ⟨hf, -, hs⟩ | ⟨hf, -, hs⟩ := settle_cases b r a
  · rw [hs, State.raise_fault] at h
    rw [hs, Option.some.inj h]
  · simp [hs, hf] at h
  · simp [hs, hf] at h

/-- The whole of a faulting step: the refresh, then the fault (60_exceptions R211). -/
theorem step_eq_raise_of_fault {s t : State} {k : Fault} (h : step s = .next t) (hk : t.fault = some k) :
    t = s.refresh.raise k := by
  obtain ⟨-, ⟨-, rfl⟩ | ⟨-, i, a, -, -, rfl⟩ | ⟨-, -, rfl⟩⟩ := step_cases h
  · rw [State.raise_fault] at hk
    rw [Option.some.inj hk]
  · exact settle_eq_raise_of_fault hk
  · exact settle_eq_raise_of_fault hk

/-- Settles O15: a faulting step is the refresh and the fault alone, and `step` looks at `fault` first. -/
theorem faultIsStickyAndChangesNothingElse : Obligations.FaultIsStickyAndChangesNothingElse := by
  refine ⟨rfl, fun s t k _ h hk => ?_, fun s k => step_faulted⟩
  obtain rfl := step_eq_raise_of_fault h hk
  exact ⟨rfl, fun _ => rfl⟩

/-- A run of one step more is a step and then the run. -/
theorem run_succ_eq_next {s t : State} {k : Nat} : Host.Core.run Sys2Proof.core (k + 1) s = .next t ↔
    ∃ a, step s = .next a ∧ Host.Core.run Sys2Proof.core k a = .next t := by
  constructor
  · intro h
    cases hs : step s with
    | next a => exact ⟨a, rfl, run_succ hs ▸ h⟩
    | fault r =>
      have hs' : Sys2Proof.core.step s = .fault r := hs
      simp [Host.Core.run, hs'] at h
    | refused r =>
      have hs' : Sys2Proof.core.step s = .refused r := hs
      simp [Host.Core.run, hs'] at h
  · rintro ⟨a, hs, h⟩
    rw [run_succ hs, h]

/-- A run is safe when its first state has no fault and the run from the next state is safe. -/
theorem safeFor_succ {s a : State} {k : Nat} (hs : s.fault = none) (h : step s = .next a) (ha : a.SafeFor k) :
    s.SafeFor (k + 1) := by
  intro j hj
  cases j with
  | zero => exact ⟨s, rfl, hs⟩
  | succ j =>
    rw [run_succ h]
    exact ha j (by omega)

/-- A run whose last state has no fault had none before: a faulted machine has no step (10_state R34). -/
theorem safeFor_of_run {s t : State} {k : Nat} (h : Host.Core.run Sys2Proof.core k s = .next t) (ht : t.fault = none) :
    s.SafeFor k := by
  induction k generalizing s with
  | zero =>
    intro j hj
    obtain rfl : j = 0 := by omega
    exact ⟨t, h, ht⟩
  | succ k ih =>
    obtain ⟨a, hs, ha⟩ := run_succ_eq_next.1 h
    exact safeFor_succ (step_cases hs).1 hs (ih ha)

/-- Settles O20: forward by the definition at its last step, backward by induction on the run. -/
theorem runIsSafeExactlyWhenItsLastStateIs : Obligations.RunIsSafeExactlyWhenItsLastStateIs :=
  fun _ k => ⟨fun h => h k le_rfl, fun ⟨_, h, ht⟩ => safeFor_of_run h ht⟩

end Sys2Proof.Machine
end

section
/-! SUPPORT. The invariant: its clauses about the elements of the block are kept by every instruction from a legal `pc`,
and a step that ends in a key wait is held in it (10_state R24, R25; 20_memory R54; 40_step_cycle R99). -/

namespace Sys2Proof.Machine

/-- The invariant's clauses about memory, the stack and `pc`: all but the one about the MODEL's field `waiting`. -/
structure State.CoreInv (s : State) : Prop where
  mem_wf : s.mem.wf = true
  slot_zero : s.slot 0 = 0
  slot_le : ∀ k, (s.slot k).toNat ≤ 4094
  pc_le : s.pc.toNat ≤ 4350

theorem inv_iff {s : State} : s.Inv ↔ s.CoreInv ∧ (s.waiting = true → s.HeldInKeyWait) :=
  ⟨fun ⟨hm, h0, hs, hp, hw⟩ => ⟨⟨hm, h0, hs, hp⟩, hw⟩, fun ⟨⟨hm, h0, hs, hp⟩, hw⟩ => ⟨hm, h0, hs, hp, hw⟩⟩

/-- Settles O2. -/
theorem resetMeetsInvariant : Obligations.ResetMeetsInvariant :=
  inv_iff.2 ⟨⟨Memory.reset_wf, by decide, by decide, by decide⟩, fun h => absurd h Bool.false_ne_true⟩

/-- The slot above a stack pointer that is not the last is not slot 0 (10_state R25). -/
theorem zero_ne_add_one : ∀ k : Fin 16, k ≠ 15 → 0 ≠ k + 1 := by decide

section
variable {i : Instr} {s t : State} (he : Effect s i t)
include he

/-- Both instructions that store keep the canonical form, because they store inside memory only (20_memory R54, R55). -/
theorem Effect.mem_wf (h : s.mem.wf = true) : t.mem.wf = true := by
  cases he with
  | ldB x hI => exact Memory.writeBytes_wf (show s.I.toNat + 3 ≤ 4096 by omega) h
  | dump x hI => exact Memory.writeBytes_wf (by rw [regsUpTo_length, State.effAddr]; omega) h
  | _ => exact h

/-- CALL stores above the slot of `sp`, so never into slot 0 (10_state R25, 41_control R113). -/
theorem Effect.slot_zero (h : s.slot 0 = 0) : t.slot 0 = 0 := by
  cases he with
  | call nnn hsp =>
    simp [zero_ne_add_one s.sp hsp, h]
  | _ => exact h

/-- What CALL stores is the `pc` it was fetched at (41_control R113). -/
theorem Effect.slot_le (hp : s.pc.toNat ≤ 4094) (h : ∀ k, (s.slot k).toNat ≤ 4094) (k : Fin 16) :
    (t.slot k).toNat ≤ 4094 := by
  cases he with
  | call nnn =>
    rw [State.setPc_slot, State.pushAt_slot]
    split
    · exact hp
    · exact h k
  | _ => exact h k

/-- From a legal `pc`, and slots that hold legal ones, no instruction takes `pc` above 4350 (10_state R24). -/
theorem Effect.pc_le (hp : s.pc.toNat ≤ 4094) (h : ∀ k, (s.slot k).toNat ≤ 4094) : t.pc.toNat ≤ 4350 := by
  have hadv : (s.pc + 2).toNat ≤ 4350 := by bv_omega
  cases he with
  | fault => exact hp.trans (by decide)
  | held => exact hp.trans (by decide)
  | jump _ hw => exact hw hp
  | call nnn => rw [State.setPc_pc, zext16_toNat]; omega
  | ret =>
    have := h s.sp
    rw [State.setSp_pc, State.setPc_pc]
    bv_omega
  | _ => exact hadv

/-- Every instruction that is fetched keeps the clauses about the block. -/
theorem Effect.coreInv (hp : s.pc.toNat ≤ 4094) (h : s.CoreInv) : t.CoreInv :=
  ⟨he.mem_wf h.mem_wf, he.slot_zero h.slot_zero, he.slot_le hp h.slot_le, he.pc_le hp h.slot_le⟩

end

/-- An unrecognised word moves `pc` by 2 and touches neither memory nor the stack (40_step_cycle R96). -/
theorem unrecognised_coreInv {s : State} {op : Word} (hp : s.pc.toNat ≤ 4094) (h : s.CoreInv) :
    (s.unrecognised op).CoreInv :=
  ⟨h.mem_wf, h.slot_zero, h.slot_le, show (s.pc + 2).toNat ≤ 4350 by bv_omega⟩

/-- The tick touches neither memory, the stack nor `pc` (40_step_cycle R97). -/
theorem timerTick_coreInv {s : State} (h : s.CoreInv) : s.timerTick.CoreInv := by
  rw [timerTick_eq]
  exact ⟨h.mem_wf, h.slot_zero, h.slot_le, h.pc_le⟩

/-- However a step ends, it keeps the clauses that hold before and after its instruction. -/
theorem settle_coreInv {b a : State} (r : Bool) (hb : b.CoreInv) (ha : a.CoreInv) : (b.settle r a).CoreInv := by
  obtain ⟨k, -, hs⟩ | ⟨-, -, hs⟩ | ⟨-, -, hs⟩ := settle_cases b r a <;> rw [hs]
  · exact ⟨hb.mem_wf, hb.slot_zero, hb.slot_le, hb.pc_le⟩
  · exact ha
  · obtain ⟨hm, h0, hsl, hp⟩ := timerTick_coreInv ha
    exact ⟨hm, h0, hsl, hp⟩

/-- Every step keeps the clauses about the block. -/
theorem step_coreInv {s t : State} (h : step s = .next t) (hs : s.CoreInv) : t.CoreInv := by
  have hr : s.refresh.CoreInv := ⟨hs.mem_wf, hs.slot_zero, hs.slot_le, hs.pc_le⟩
  have hl : (s.refresh.latch s.fetchWord).CoreInv := ⟨hs.mem_wf, hs.slot_zero, hs.slot_le, hs.pc_le⟩
  obtain ⟨-, ⟨-, rfl⟩ | ⟨⟨-, hp⟩, i, a, -, ha, rfl⟩ | ⟨⟨-, hp⟩, -, rfl⟩⟩ := step_cases h
  · exact ⟨hs.mem_wf, hs.slot_zero, hs.slot_le, hs.pc_le⟩
  · exact settle_coreInv true hr ((effect_of_exec ha).coreInv hp hl)
  · exact settle_coreInv false hr (unrecognised_coreInv hp hl)

/-- A step held in a key wait takes no fault. -/
theorem step_fault_eq_none_of_held {s t : State} (hw : s.HeldInKeyWait) (h : step s = .next t) : t.fault = none := by
  obtain ⟨hc, -, -, x, hx⟩ := hw
  obtain ⟨a, ha⟩ := exec_next (.ldVxK x) (s.refresh.latch s.fetchWord)
  have hf : a.fault = none := (effect_of_exec ha).fault_eq_of_ldVxK.trans hc.1
  rw [step_instr hc hx ha] at h
  obtain rfl := Host.Outcome.next.inj h
  obtain ⟨k, hk, -⟩ | ⟨-, -, hs⟩ | ⟨-, -, hs⟩ := settle_cases s.refresh true a
  · simp [hf] at hk
  · rw [hs, hf]
  · rw [hs, State.emit_fault, timerTick_fault, hf]

/-- The only step that ends without a fault and waiting is LD Vx, K on a sample with no key down (40_step_cycle R99). -/
theorem step_held_of_waiting {s t : State} (h : step s = .next t) (hf : t.fault = none) (hw : t.waiting = true) :
    t.HeldInKeyWait := by
  obtain ⟨-, ⟨-, rfl⟩ | ⟨hc, i, a, hd, ha, rfl⟩ | ⟨hc, -, rfl⟩⟩ := step_cases h
  · simp at hf
  · obtain ⟨k, -, hs⟩ | ⟨-, haw, hs⟩ | ⟨-, haw, hs⟩ := settle_cases s.refresh true a
    · simp [hs] at hf
    · obtain ⟨x, rfl, hk, rfl⟩ := (effect_of_exec ha).held_of_waiting rfl haw
      rw [hs]
      exact ⟨hc, hk, rfl, x, hd⟩
    · simp [hs, haw] at hw
  · have hu : ((s.refresh.latch s.fetchWord).unrecognised s.fetchWord).fault = none := hc.1
    rw [settle_done hu rfl] at hw
    simp [State.unrecognised] at hw

/-- A step that ends waiting is held in a key wait. With a fault it would have left the field as it was, and then
the step before it was held, where no fault is taken. -/
theorem step_keeps_held {s t : State} (hs : s.waiting = true → s.HeldInKeyWait) (h : step s = .next t)
    (hw : t.waiting = true) : t.HeldInKeyWait := by
  cases hf : t.fault with
  | none => exact step_held_of_waiting h hf hw
  | some k =>
    have hsw : s.waiting = true := by rwa [step_eq_raise_of_fault h hf] at hw
    rw [step_fault_eq_none_of_held (hs hsw) h] at hf
    nomatch hf

/-- Settles O3: the clauses about the block by the effect of each instruction, the clause about `waiting` by the ends of a
step. -/
theorem stepKeepsInvariant : Obligations.StepKeepsInvariant := by
  intro s t hs h
  obtain ⟨hc, hw⟩ := inv_iff.1 hs
  exact inv_iff.2 ⟨step_coreInv h hc, step_keeps_held hw h⟩

end Sys2Proof.Machine
end

section
/-! SUPPORT. The flag register: what each effect leaves in it (10_state R22). -/

namespace Sys2Proof.Machine

theorem flagByte_eq_zero_or_one (f : Bool) : flagByte f = 0 ∨ flagByte f = 1 := by
  cases f
  · exact .inl rfl
  · exact .inr rfl

/-- An instruction that writes the flag last leaves it 0 or 1, whatever its destination (43_load_arith R144). -/
theorem resultFlag_flag (s : State) (x : Reg) (b : Byte) (f : Bool) :
    (s.resultFlag x b f).reg 15 = 0 ∨ (s.resultFlag x b f).reg 15 = 1 := by
  simpa [State.resultFlag] using flagByte_eq_zero_or_one f

/-- The five flag writers that take no fault leave their flag (R134 to R138). -/
theorem Effect.flag_of_writesRegFlag {i : Instr} {s t : State} {x : Reg} (he : Effect s i t) (hi : i.WritesRegFlag x) :
    t.reg 15 = 0 ∨ t.reg 15 = 1 := by
  cases he with
  | resultFlag b f => exact resultFlag_flag s _ b f
  | fault h => cases hi <;> nomatch h
  | jump h => cases hi <;> nomatch h
  | result _ h => cases hi <;> nomatch h
  | index _ h => cases hi <;> nomatch h
  | _ => nomatch hi

/-- DRW without a fault leaves its collision flag (45_draw R161). -/
theorem Effect.flag_of_drw {s t : State} {x y : Reg} {n : Nat} (he : Effect s (.drw x y n) t) (hf : t.fault = none) :
    t.reg 15 = 0 ∨ t.reg 15 = 1 := by
  cases he with
  | fault => nomatch hf
  | drw => simpa using flagByte_eq_zero_or_one (s.drawn x y n).hit
  | jump h => nomatch h
  | result _ h => nomatch h
  | resultFlag _ _ h => nomatch h
  | index _ h => nomatch h

/-- Those of the six flag writers that write a register too, as O51 lists them. -/
theorem exists_writesRegFlag_iff {i : Instr} : (∃ x, i.WritesRegFlag x) ↔
    ∃ x y, i = .addReg x y ∨ i = .subReg x y ∨ i = .subnReg x y ∨ i = .shr x y ∨ i = .shl x y := by
  constructor
  · rintro ⟨_, h⟩
    cases h <;> simp
  · rintro ⟨x, y, rfl | rfl | rfl | rfl | rfl⟩ <;> exact ⟨x, by constructor⟩

/-- An instruction that is no flag writer and has not register 15 as a destination leaves it (10_state R22). -/
theorem Effect.flag_eq {i : Instr} {s t : State} (he : Effect s i t) (hw : ¬∃ x, i.WritesRegFlag x)
    (hd : ∀ x y n, i ≠ .drw x y n) (hr : ¬i.WritesReg 15) (hrnd : ∀ nn, i ≠ .rnd 15 nn) (hk : i ≠ .ldVxK 15)
    (hl : i ≠ .load 15) : t.reg 15 = s.reg 15 := by
  cases he with
  | result b h => exact State.setReg_reg_ne s _ 15 b fun hx => hr (hx ▸ h)
  | resultFlag _ _ h => exact absurd ⟨_, h⟩ hw
  | rnd x nn => exact State.setReg_reg_ne s.rngAdvanced x 15 _ fun hx => hrnd nn (hx ▸ rfl)
  | drw x y n => exact absurd rfl (hd x y n)
  | load x _ hv =>
    subst hv
    have hx : ¬(15 : Reg) ≤ x := fun h => hl (by rw [Fin.le_antisymm h (Fin.le_last x)])
    exact (regsLoaded_getElem s x 15).trans (if_neg hx)
  | keyTaken x => exact State.setReg_reg_ne s x 15 _ fun hx => hk (hx ▸ rfl)
  | _ => rfl

/-- Settles O51: the flag writers by the value each leaves, the others by `Effect.flag_eq`. -/
theorem flagRegisterHasSixSideEffectWriters : Obligations.FlagRegisterHasSixSideEffectWriters := by
  intro i s t _ h hf
  have he := effect_of_exec h
  rw [← exists_writesRegFlag_iff]
  constructor
  · rintro (⟨x, hx⟩ | ⟨x, y, n, rfl⟩)
    · exact he.flag_of_writesRegFlag hx
    · exact he.flag_of_drw hf
  · intro hn hdest
    rw [not_or] at hn
    have hr : ¬i.WritesReg 15 := by
      intro h
      cases h <;> simp at hdest
    exact he.flag_eq hn.1 (fun x y n h => hn.2 ⟨x, y, n, h⟩) hr (fun nn => by simp [hdest 0 nn]) (by simp [hdest 0 0])
      (by simp [hdest 0 0])

end Sys2Proof.Machine
end

section
/-! SUPPORT. What an instruction does not read: `last_opcode`, and the generator unless it is RND (10_state R32, R33). -/

namespace Sys2Proof.Machine

/-- The state with another `last_opcode` and another state of the generator. -/
def State.withLatchRng (s : State) (op : Word) (w : RngWord) : State := { s with lastOpcode := op, rng := w }

variable (s : State) (op : Word) (w : RngWord)

theorem access_withLatchRng {n : Nat} {e e' : State} (he : e' = e.withLatchRng op w) :
    (s.withLatchRng op w).access n e' = (s.access n e).withLatchRng op w := by
  subst he
  simp only [State.access, apply_ite (State.withLatchRng · op w)]
  rfl

theorem skipOnKey_withLatchRng (x : Reg) (down : Bool) :
    (s.withLatchRng op w).skipOnKey x down = (s.skipOnKey x down).withLatchRng op w := by
  simp only [State.skipOnKey, apply_ite (State.withLatchRng · op w)]
  rfl

theorem keyWait_withLatchRng (x : Reg) : (s.withLatchRng op w).keyWait x = (s.keyWait x).withLatchRng op w := by
  have hk : (s.withLatchRng op w).keys = s.keys := rfl
  unfold State.keyWait
  rw [hk]
  split <;> rfl

/-- Every instruction but RND does the same whatever `last_opcode` and the generator hold. -/
theorem exec_withLatchRng {i : Instr} {s t : State} (op : Word) (w : RngWord) (hi : ∀ x nn, i ≠ .rnd x nn)
    (h : exec i s = .next t) : exec i (s.withLatchRng op w) = .next (t.withLatchRng op w) := by
  cases i with
  | rnd x nn => exact absurd rfl (hi x nn)
  | ret =>
    by_cases hsp : s.sp = 0
    · obtain rfl := Host.Outcome.next.inj ((exec_raises (.ret hsp)).symm.trans h)
      exact exec_raises (.ret hsp)
    · obtain rfl := Host.Outcome.next.inj ((exec_ret hsp).symm.trans h)
      exact exec_ret hsp
  | call nnn =>
    by_cases hsp : s.sp = 15
    · obtain rfl := Host.Outcome.next.inj ((exec_raises (.call nnn hsp)).symm.trans h)
      exact exec_raises (.call nnn hsp)
    · obtain rfl := Host.Outcome.next.inj ((exec_call hsp).symm.trans h)
      exact exec_call hsp
  | drw x y n =>
    obtain rfl := Host.Outcome.next.inj h
    exact congrArg Host.Outcome.next (access_withLatchRng s op w rfl)
  | ldB x =>
    obtain rfl := Host.Outcome.next.inj h
    exact congrArg Host.Outcome.next (access_withLatchRng s op w rfl)
  | dump x | load x =>
    obtain rfl := Host.Outcome.next.inj h
    exact congrArg Host.Outcome.next (access_withLatchRng s op w rfl)
  | skp x | sknp x =>
    obtain rfl := Host.Outcome.next.inj h
    exact congrArg Host.Outcome.next (skipOnKey_withLatchRng s op w x _)
  | ldVxK x =>
    obtain rfl := Host.Outcome.next.inj h
    exact congrArg Host.Outcome.next (keyWait_withLatchRng s op w x)
  | _ =>
    obtain rfl := Host.Outcome.next.inj h
    rfl

/-- Settles O52: with one of the two fields kept, `exec_withLatchRng` is the statement; RND is seen directly. -/
theorem latchAndGeneratorDoNotInfluenceOtherInstructions :
    Obligations.LatchAndGeneratorDoNotInfluenceOtherInstructions := by
  intro i s t op w h
  have he := effect_of_exec h
  constructor
  · by_cases hi : ∀ x nn, i ≠ .rnd x nn
    · have ht : t.withLatchRng op s.rng = { t with lastOpcode := op } := by
        rw [← he.rng_eq hi]
        rfl
      exact (exec_withLatchRng op s.rng hi h).trans (congrArg _ ht)
    · push Not at hi
      obtain ⟨x, nn, rfl⟩ := hi
      obtain rfl := Host.Outcome.next.inj h
      rfl
  · intro hi
    have ht : t.withLatchRng s.lastOpcode w = { t with rng := w } := by
      rw [← he.lastOpcode_eq]
      rfl
    exact (exec_withLatchRng s.lastOpcode w hi h).trans (congrArg _ ht)

end Sys2Proof.Machine
end

section
/-! SUPPORT. The table of reset values (10_state R37). -/

namespace Sys2Proof.Machine

/-- Above the font table memory is 0 after reset. -/
theorem reset_read_above_font {a : Nat} (h : 80 ≤ a) : State.reset.mem.read a = 0 := List.getD_eq_default _ _ h

theorem reset_reg (r : Reg) : State.reset.reg r = 0 := Vector.getElem_replicate _

theorem reset_slot (k : Fin 16) : State.reset.slot k = 0 := Vector.getElem_replicate _

theorem reset_pixel (px py : Nat) : State.reset.pixel px py = false := by
  simp [State.pixel, Display.cell, State.reset]

theorem reset_keyDown (k : Nat) : keyDown State.reset.keys k = false := BitVec.getLsbD_zero

/-- Settles O1. -/
theorem resetStateIsTheTableOfResetValues : Obligations.ResetStateIsTheTableOfResetValues :=
  ⟨by decide, fun _ h _ => reset_read_above_font h, reset_reg, rfl, rfl, reset_slot, rfl, rfl, rfl, reset_pixel, rfl,
    fun k _ => reset_keyDown k, rfl, rfl, rfl⟩

end Sys2Proof.Machine
end

section
/-! SUPPORT. What a register dump leaves in memory, and what the next fetch then reads (20_memory R62,
46_memory_ops R172). -/

namespace Sys2Proof.Machine

@[simp] theorem timerTick_mem (s : State) : s.timerTick.mem = s.mem := by rw [timerTick_eq]

@[simp] theorem timerTick_pc (s : State) : s.timerTick.pc = s.pc := by rw [timerTick_eq]

/-- Byte `k` of a register dump is `V[k]` (46_memory_ops R172). -/
theorem read_stored_regsUpTo {s : State} {x k : Reg} (hm : s.mem.wf = true) (hI : s.I.toNat + x.val ≤ 4095)
    (hk : k.val ≤ x.val) : (s.stored (s.regsUpTo x)).read (s.I.toNat + k.val) = s.reg k := by
  have hlen := regsUpTo_length s x
  have hfit : s.I.toNat + (s.regsUpTo x).length ≤ 4096 := by omega
  have hread := Memory.read_writeBytes (c := s.I.toNat + k.val) hfit hm
  rw [dif_pos (by omega), regsUpTo_getElem] at hread
  simpa [State.stored, State.effAddr, State.reg] using hread

/-- The first two bytes of a dump of at least two registers, as a word (46_memory_ops R172, 20_memory R52). -/
theorem readWord_stored_regsUpTo {s : State} {x : Reg} (hm : s.mem.wf = true) (hI : s.I.toNat + x.val ≤ 4095)
    (hx : 1 ≤ x.val) : (s.stored (s.regsUpTo x)).readWord s.I.toNat = wordOfBytes (s.reg 0) (s.reg 1) :=
  congrArg₂ wordOfBytes (read_stored_regsUpTo (k := 0) hm hI (Nat.zero_le _)) (read_stored_regsUpTo (k := 1) hm hI hx)

/-- The step of an instruction that takes no fault and does not wait completes with the tick and the result
(40_step_cycle R97, R98). -/
theorem step_completed {s a : State} {i : Instr} (hc : s.CanFetch) (hd : decodeWord s.fetchWord = some i)
    (he : exec i (s.refresh.latch s.fetchWord) = .next a) (hf : a.fault = none) (hw : a.waiting = false) :
    step s = .next (a.timerTick.emit (.returned true)) := by
  rw [step_instr hc hd he, settle_done hf hw]

/-- The step of a register dump inside memory completes, with the registers stored and `pc` advanced
(46_memory_ops R172). -/
theorem step_dump {s : State} {x : Reg} (hc : s.CanFetch) (hd : decodeWord s.fetchWord = some (.dump x))
    (hI : s.I.toNat + x.val ≤ 4095) :
    ∃ t, step s = .next t ∧ t.fault = none ∧ t.pc = s.pc + 2 ∧ t.mem = s.stored (s.regsUpTo x) := by
  refine ⟨_, step_completed hc hd (exec_dump hI) hc.1 rfl, ?_⟩
  simp only [State.emit_fault, State.emit_pc, State.emit_mem, timerTick_fault, timerTick_pc, timerTick_mem]
  exact ⟨hc.1, rfl, rfl⟩

/-- Settles O53: the dump leaves `pc` at `I`, where the bytes stored first are those of `V[0]` and `V[1]`. -/
theorem storeIsSeenByTheNextFetch : Obligations.StoreIsSeenByTheNextFetch := by
  intro s x hc hm hd hx hpc hI
  obtain ⟨t, ht, hf, htpc, htm⟩ := step_dump hc hd hI
  have hp : t.pc = s.I := htpc.trans hpc.symm
  refine ⟨t, ht, hf, hp, ?_⟩
  rw [State.fetchWord, hp, htm]
  exact readWord_stored_regsUpTo hm hI hx

end Sys2Proof.Machine
end

section
/-! SUPPORT. The fields of a word: their sizes, the word packed again from them, and what its bits under a row's mask say
of them (30_encoding R71, R72, R74). -/

namespace Sys2Proof

variable {op v : Word} {t n kk : Nat}

theorem fieldT_lt (op : Word) : fieldT op < 16 := Nat.mod_lt _ (by decide)

theorem fieldN_lt (op : Word) : fieldN op < 16 := Nat.mod_lt _ (by decide)

theorem fieldT_eq (op : Word) : fieldT op = op.toNat / 4096 := by
  simp only [fieldT, slice]
  omega

theorem fieldN_eq (op : Word) : fieldN op = op.toNat % 16 := by
  simp only [fieldN, slice]
  omega

theorem slice_low_byte (op : Word) : slice op 0 8 = op.toNat % 256 := by
  simp only [slice]
  omega

theorem fieldNN_toNat (op : Word) : (fieldNN op).toNat = slice op 0 8 := by
  simp only [fieldNN, slice, BitVec.toNat_ofNat]
  omega

theorem packFixed_toNat (h : op.toNat = n) : packFixed n = op := by
  rw [packFixed, ← h, BitVec.ofNat_toNat, BitVec.setWidth_eq]

theorem packNNN_fields (ht : fieldT op = t) : packNNN t (fieldNNN op) = op := by
  subst ht
  apply BitVec.eq_of_toNat_eq
  simp only [packNNN, fieldT, fieldNNN, slice, BitVec.toNat_ofNat]
  omega

theorem packXYN_fields (ht : fieldT op = t) (hn : fieldN op = n) : packXYN t (fieldX op) (fieldY op) n = op := by
  subst ht hn
  apply BitVec.eq_of_toNat_eq
  simp only [packXYN, fieldT, fieldX, fieldY, fieldN, slice, BitVec.toNat_ofNat]
  omega

theorem packXKK_fields (ht : fieldT op = t) (hk : slice op 0 8 = kk) : packXKK t (fieldX op) kk = op := by
  subst ht hk
  apply BitVec.eq_of_toNat_eq
  simp only [packXKK, fieldT, fieldX, slice, BitVec.toNat_ofNat]
  omega

theorem packXNN_fields (ht : fieldT op = t) : packXKK t (fieldX op) (fieldNN op).toNat = op :=
  packXKK_fields ht (fieldNN_toNat op).symm

theorem fieldT_of_and_F000 (h : op &&& 0xF000 = v) : fieldT op = v.toNat / 4096 := by
  rw [← h, and_F000, Nat.mul_div_cancel _ (by decide)]

theorem fields_of_and_F00F (h : op &&& 0xF00F = v) : fieldT op = v.toNat / 4096 ∧ fieldN op = v.toNat % 4096 := by
  have hn := fieldN_lt op
  rw [← h, and_F00F]
  omega

theorem fields_of_and_F0FF (h : op &&& 0xF0FF = v) : fieldT op = v.toNat / 4096 ∧ slice op 0 8 = v.toNat % 4096 := by
  have hk : slice op 0 8 < 256 := Nat.mod_lt _ (by decide)
  rw [← h, and_F0FF]
  omega

theorem eq_of_and_FFFF (h : op &&& 0xFFFF = v) : op = v := by
  apply BitVec.eq_of_toNat_eq
  rw [← h, and_FFFF]

end Sys2Proof
end

section
/-! SUPPORT. Decoder and encoder are inverse to each other (30_encoding R71 to R75): the two round trips. -/

namespace Sys2Proof

/-- At one constructor this is the decoding of that row's packed word, with the row's operands at any value. -/
theorem decodeWord_encodeWord (i : Instr) (hi : i.wellFormed = true) : decodeWord (encodeWord i) = some i := by
  cases i with
  | cls | ret => rfl
  | jp nnn | call nnn | ldI nnn | jpV0 nnn =>
    simp only [encodeWord, decodeWord, fieldT_packNNN, fieldNNN_packNNN, Nat.reduceLT]
  | seImm x nn | sneImm x nn | ldImm x nn | addImm x nn | rnd x nn =>
    simp only [encodeWord, decodeWord, fieldT_packXNN, fieldX_packXNN, fieldNN_packXNN, Nat.reduceLT]
  | seReg x y | sneReg x y =>
    simp only [encodeWord, decodeWord, fieldT_packXYN, fieldX_packXYN, fieldY_packXYN, fieldN_packXYN, Nat.reduceLT,
      ↓reduceIte]
  | ldReg x y | orReg x y | andReg x y | xorReg x y | addReg x y | subReg x y | shr x y | subnReg x y | shl x y =>
    simp only [encodeWord, decodeWord, decodeAlu, fieldT_packXYN, fieldX_packXYN, fieldY_packXYN, fieldN_packXYN,
      Nat.reduceLT]
  | drw x y n =>
    have hn : n < 16 := Nat.lt_succ_of_le (of_decide_eq_true hi)
    simp only [encodeWord, decodeWord, fieldT_packXYN, fieldX_packXYN, fieldY_packXYN, fieldN_packXYN, Nat.reduceLT, hn]
  | skp x | sknp x =>
    simp only [encodeWord, decodeWord, decodeKey, fieldT_packXKK, fieldX_packXKK, slice_packXKK, Nat.reduceLT]
  | ldVxDT x | ldVxK x | ldDTVx x | ldSTVx x | addI x | ldF x | ldB x | dump x | load x =>
    simp only [encodeWord, decodeWord, decodeMisc, fieldT_packXKK, fieldX_packXKK, slice_packXKK, Nat.reduceLT]

/-- Settles O5. -/
theorem decodingAnEncodedInstructionGivesItBack : Obligations.DecodingAnEncodedInstructionGivesItBack := by
  intro i rest hi
  apply decode_eq_instr.mpr
  rw [wordOfBytes_hi_lo, decodeWord_encodeWord i hi]

variable {op : Word} {i : Instr}

theorem encodeWord_of_decodeFixed (h : decodeFixed op = some i) : i.wellFormed = true ∧ encodeWord i = op := by
  unfold decodeFixed at h
  split at h
  case h_3 => cases h
  all_goals
    cases h
    exact ⟨rfl, packFixed_toNat ‹_›⟩

theorem encodeWord_of_decodeAlu (hT : fieldT op = 0x8) (h : decodeAlu op = some i) :
    i.wellFormed = true ∧ encodeWord i = op := by
  unfold decodeAlu at h
  split at h
  case h_10 => cases h
  all_goals
    cases h
    exact ⟨rfl, packXYN_fields hT ‹_›⟩

theorem encodeWord_of_decodeKey (hT : fieldT op = 0xE) (h : decodeKey op = some i) :
    i.wellFormed = true ∧ encodeWord i = op := by
  unfold decodeKey at h
  split at h
  case h_3 => cases h
  all_goals
    cases h
    exact ⟨rfl, packXKK_fields hT ‹_›⟩

theorem encodeWord_of_decodeMisc (hT : fieldT op = 0xF) (h : decodeMisc op = some i) :
    i.wellFormed = true ∧ encodeWord i = op := by
  unfold decodeMisc at h
  split at h
  case h_10 => cases h
  all_goals
    cases h
    exact ⟨rfl, packXKK_fields hT ‹_›⟩

/-- By the branches of `decodeWord`: branch `k` has the leading nibble `k - 1`, and the last is never taken. -/
theorem encodeWord_of_decodeWord (h : decodeWord op = some i) : i.wellFormed = true ∧ encodeWord i = op := by
  unfold decodeWord at h
  split at h
  case h_1 => exact encodeWord_of_decodeFixed h
  case h_2 hT | h_3 hT | h_11 hT | h_12 hT => cases h; exact ⟨rfl, packNNN_fields hT⟩
  case h_4 hT | h_5 hT | h_7 hT | h_8 hT | h_13 hT => cases h; exact ⟨rfl, packXNN_fields hT⟩
  case h_6 hT | h_10 hT =>
    obtain ⟨hN, ⟨⟩⟩ := Option.ite_none_right_eq_some.mp h
    exact ⟨rfl, packXYN_fields hT hN⟩
  case h_9 hT => exact encodeWord_of_decodeAlu hT h
  case h_14 hT => cases h; exact ⟨decide_eq_true (Nat.le_of_lt_succ (fieldN_lt op)), packXYN_fields hT rfl⟩
  case h_15 hT => exact encodeWord_of_decodeKey hT h
  case h_16 hT => exact encodeWord_of_decodeMisc hT h
  case h_17 => cases h

/-- Settles O6. -/
theorem encodingADecodedWordGivesItBack : Obligations.EncodingADecodedWordGivesItBack :=
  fun _ _ => encodeWord_of_decodeWord

end Sys2Proof
end

section
/-! SUPPORT. The rows of the opcode map and the decoder (30_encoding R74): a word of a row decodes to an instruction of that
row, so no word is in two rows; a word that decodes lies in its instruction's row. -/

namespace Sys2Proof.Laws.FixedBits

/-- The family holds of every instruction. -/
theorem statement : ∀ i : Instr, Statement i
  | .cls => cls | .ret => ret | .jp nnn => jp nnn | .call nnn => call nnn | .seImm x nn => seImm x nn
  | .sneImm x nn => sneImm x nn | .seReg x y => seReg x y | .ldImm x nn => ldImm x nn | .addImm x nn => addImm x nn
  | .ldReg x y => ldReg x y | .orReg x y => orReg x y | .andReg x y => andReg x y | .xorReg x y => xorReg x y
  | .addReg x y => addReg x y | .subReg x y => subReg x y | .shr x y => shr x y | .subnReg x y => subnReg x y
  | .shl x y => shl x y | .sneReg x y => sneReg x y | .ldI nnn => ldI nnn | .jpV0 nnn => jpV0 nnn
  | .rnd x nn => rnd x nn | .drw x y n => drw x y n | .skp x => skp x | .sknp x => sknp x | .ldVxDT x => ldVxDT x
  | .ldVxK x => ldVxK x | .ldDTVx x => ldDTVx x | .ldSTVx x => ldSTVx x | .addI x => addI x | .ldF x => ldF x
  | .ldB x => ldB x | .dump x => dump x | .load x => load x

end Sys2Proof.Laws.FixedBits

namespace Sys2Proof

variable {op : Word}

theorem Instr.row_mem_opcodeRows (i : Instr) : i.row ∈ opcodeRows := by
  cases i <;> (simp only [Instr.row]; decide)

theorem opcodeRows_nodup : opcodeRows.Nodup := by decide

/-- The mask of a row says which fields its words have fixed; at these the decoder takes the row's branch. -/
theorem decodeWord_of_row (i : Instr) (h : op &&& i.row.mask = i.row.value) :
    ∃ j, decodeWord op = some j ∧ j.row = i.row := by
  cases i with
  | cls | ret => cases eq_of_and_FFFF h; exact ⟨_, rfl, rfl⟩
  | jp _ | call _ | seImm _ _ | sneImm _ _ | ldImm _ _ | addImm _ _ | ldI _ | jpV0 _ | rnd _ _ | drw _ _ _ =>
    have hT := fieldT_of_and_F000 h
    simp [decodeWord, hT, Instr.row]
  | seReg _ _ | sneReg _ _ | ldReg _ _ | orReg _ _ | andReg _ _ | xorReg _ _ | addReg _ _ | subReg _ _ | shr _ _
  | subnReg _ _ | shl _ _ =>
    obtain ⟨hT, hN⟩ := fields_of_and_F00F h
    simp [decodeWord, decodeAlu, hT, hN, Instr.row]
  | skp _ | sknp _ | ldVxDT _ | ldVxK _ | ldDTVx _ | ldSTVx _ | addI _ | ldF _ | ldB _ | dump _ | load _ =>
    obtain ⟨hT, hK⟩ := fields_of_and_F0FF h
    simp [decodeWord, decodeKey, decodeMisc, hT, hK, Instr.row]

theorem decodeWord_of_mem_opcodeRows {r : OpcodeRow} (hr : r ∈ opcodeRows) (h : op &&& r.mask = r.value) :
    ∃ i, decodeWord op = some i ∧ i.row = r := by
  obtain ⟨i, -, rfl⟩ := List.mem_map.mp hr
  exact decodeWord_of_row i h

/-- Two rows with a common word are one row, that of the instruction the word decodes to. -/
theorem opcodeRow_unique {p q : OpcodeRow} (hp : p ∈ opcodeRows) (hq : q ∈ opcodeRows)
    (hop : op &&& p.mask = p.value) (hoq : op &&& q.mask = q.value) : p = q := by
  obtain ⟨i, hi, rfl⟩ := decodeWord_of_mem_opcodeRows hp hop
  obtain ⟨j, hj, rfl⟩ := decodeWord_of_mem_opcodeRows hq hoq
  rw [Option.some.inj (hi.symm.trans hj)]

theorem decodeWord_eq_none_of_no_row (h : ∀ r ∈ opcodeRows, op &&& r.mask ≠ r.value) : decodeWord op = none := by
  apply Option.eq_none_iff_forall_ne_some.mpr
  intro i hd
  obtain ⟨hi, rfl⟩ := encodeWord_of_decodeWord hd
  exact h i.row i.row_mem_opcodeRows (Laws.FixedBits.statement i hi)

/-- Settles O7: the rows differ, so they are disjoint because the decoder gives a word one instruction. -/
theorem opcodeWordSelectsItsOnlyRow : Obligations.OpcodeWordSelectsItsOnlyRow :=
  ⟨rfl, opcodeRows_nodup.imp_of_mem fun hp hq hne _ ⟨hop, hoq⟩ => hne (opcodeRow_unique hp hq hop hoq),
    fun _ _ => decodeWord_of_mem_opcodeRows, fun _ => decodeWord_eq_none_of_no_row⟩

end Sys2Proof
end

section
/-! SUPPORT. The words each part of the decoder rejects (30_encoding R75, R76). -/

namespace Sys2Proof

theorem decodeFixed_eq_none_iff (op : Word) : decodeFixed op = none ↔ op.toNat ≠ 0x0E0 ∧ op.toNat ≠ 0x0EE := by
  unfold decodeFixed
  split
  case h_1 h | h_2 h => simp [h]
  case h_3 hcls hret => exact iff_of_true rfl ⟨hcls, hret⟩

theorem decodeAlu_eq_none_iff (op : Word) : decodeAlu op = none ↔ fieldN op ∈ [8, 9, 0xA, 0xB, 0xC, 0xD, 0xF] := by
  have hn := fieldN_lt op
  unfold decodeAlu
  generalize fieldN op = n at hn
  interval_cases n <;> simp

theorem decodeKey_eq_none_iff (op : Word) : decodeKey op = none ↔ slice op 0 8 ∉ [0x9E, 0xA1] := by
  unfold decodeKey
  split <;> simp_all

theorem decodeMisc_eq_none_iff (op : Word) :
    decodeMisc op = none ↔ slice op 0 8 ∉ [0x07, 0x0A, 0x15, 0x18, 0x1E, 0x29, 0x33, 0x55, 0x65] := by
  unfold decodeMisc
  split <;> simp_all

/-- Settles O8, by the sixteen leading nibbles: each gives its own line of the table, or none. -/
theorem unrecognisedWordsAreThoseOfTheTable : Obligations.UnrecognisedWordsAreThoseOfTheTable := by
  intro op
  have ht := fieldT_lt op
  rw [← fieldT_eq, ← fieldN_eq, ← slice_low_byte, decodeWord]
  generalize fieldT op = t at ht ⊢
  interval_cases t <;>
    simp [decodeFixed_eq_none_iff, decodeAlu_eq_none_iff, decodeKey_eq_none_iff, decodeMisc_eq_none_iff]

/-- Settles O9: each pair of bytes is the encoding of its instruction, and `01E0` is no word of the leading nibble 0. -/
theorem wordsWrittenFromThePatternsDecode : Obligations.WordsWrittenFromThePatternsDecode := by
  unfold Obligations.WordsWrittenFromThePatternsDecode
  decide

end Sys2Proof
end

section
/-! SUPPORT. What every step shares: the one key sample it takes, the word it latches, and its end (40_step_cycle R91 to
R98). -/

namespace Sys2Proof.Machine

@[simp] theorem timerTick_keys (s : State) : s.timerTick.keys = s.keys := by rw [timerTick_eq]

@[simp] theorem timerTick_lastOpcode (s : State) : s.timerTick.lastOpcode = s.lastOpcode := by rw [timerTick_eq]

@[simp] theorem timerTick_DT (s : State) : s.timerTick.DT = countDown s.DT := by rw [timerTick_eq]

@[simp] theorem timerTick_ST (s : State) : s.timerTick.ST = countDown s.ST := by rw [timerTick_eq]

@[simp] theorem timerTick_port (s : State) :
    s.timerTick.port = { s.port with events := beeps s.ST ++ s.port.events } := by rw [timerTick_eq]

/-- Where the machine stands in the host's answers: the sample it holds, the answers to come and the number given. -/
def State.sampling (s : State) : Keys × List Keys × Nat := (s.keys, s.port.samples, s.port.sampleNo)

/-- No instruction samples the keys or writes them (10_state R30). -/
theorem Effect.sampling_eq {i : Instr} {s t : State} (he : Effect s i t) : t.sampling = s.sampling := by
  simp only [State.sampling, he.keys_eq, he.port_eq]

/-- Nothing at the end of a step samples the keys or writes them. -/
theorem settle_sampling {b a : State} (r : Bool) (h : a.sampling = b.sampling) :
    (b.settle r a).sampling = b.sampling := by
  obtain ⟨k, -, hs⟩ | ⟨-, -, hs⟩ | ⟨-, -, hs⟩ := settle_cases b r a <;> rw [hs]
  · rfl
  · exact h
  · simpa [State.sampling] using h

/-- Whatever a step does, its sample is that of its refresh (40_step_cycle R91). -/
theorem step_sampling {s t : State} (h : step s = .next t) :
    t.sampling = (s.nextSample, s.port.samples.tail, s.port.sampleNo + 1) := by
  obtain ⟨-, ⟨-, rfl⟩ | ⟨-, i, a, -, ha, rfl⟩ | ⟨-, -, rfl⟩⟩ := step_cases h
  · rfl
  · exact settle_sampling true (effect_of_exec ha).sampling_eq
  · exact settle_sampling false rfl

/-- Settles O12: the refresh takes the sample, and nothing after it in the step takes another. -/
theorem everyStepTakesOneFreeKeySample : Obligations.EveryStepTakesOneFreeKeySample := by
  refine ⟨fun s t _ h => ?_, fun s ks rest h => ?_, fun _ => rfl⟩
  · simpa only [State.sampling, Prod.mk.injEq] using step_sampling h
  · simp [State.nextSample, h]

/-- A step that ends without a fault keeps the latch that its instruction left. -/
theorem settle_lastOpcode {b a : State} {r : Bool} (h : (b.settle r a).fault = none) :
    (b.settle r a).lastOpcode = a.lastOpcode := by
  obtain ⟨k, -, hs⟩ | ⟨-, -, hs⟩ | ⟨-, -, hs⟩ := settle_cases b r a
  · simp [hs] at h
  · rw [hs]
  · simp [hs]

/-- A step without a fault latches the word it fetched (40_step_cycle R93). -/
theorem step_lastOpcode {s t : State} (h : step s = .next t) (hf : t.fault = none) : t.lastOpcode = s.fetchWord := by
  obtain ⟨-, ⟨-, rfl⟩ | ⟨-, i, a, -, ha, rfl⟩ | ⟨-, -, rfl⟩⟩ := step_cases h
  · simp at hf
  · exact (settle_lastOpcode hf).trans (effect_of_exec ha).lastOpcode_eq
  · exact settle_lastOpcode hf

/-- Settles O10: the word is put together big-endian, and the latch holds to the end of a step without a fault. -/
theorem fetchIsBigEndianAndLatched : Obligations.FetchIsBigEndianAndLatched :=
  fun _ => ⟨wordOfBytes_toNat _ _, rfl, rfl, fun _ _ => step_lastOpcode⟩

/-- Settles O11: the three ends of the step of an instruction. -/
theorem stepRunsTheDecodedInstruction : Obligations.StepRunsTheDecodedInstruction := by
  intro s t i hc hd he
  have hw : decodeWord s.fetchWord = some i := decode_eq_instr.1 hd
  refine ⟨step_completed hc hw he, fun hf ht => ?_, fun k hk => ?_⟩
  · rw [step_instr hc hw he, settle_waiting hf ht]
  · rw [step_instr hc hw he, settle_fault hk]

/-- Settles O13: the step is the refresh and the fault alone. -/
theorem fetchAbove4094Faults : Obligations.FetchAbove4094Faults :=
  fun _ hf hp => ⟨_, step_pcOutOfRange hf (Nat.not_le.2 hp), rfl, rfl, fun _ => rfl⟩

/-- Settles O19, by the three ways a step goes: no fetch, an instruction, an unrecognised word. -/
theorem machineWithoutFaultAlwaysSteps : Obligations.MachineWithoutFaultAlwaysSteps := by
  intro s hf
  by_cases hp : s.pc.toNat ≤ 4094
  · cases hd : decodeWord s.fetchWord with
    | some i =>
      obtain ⟨a, ha⟩ := exec_next i (s.refresh.latch s.fetchWord)
      exact ⟨_, step_instr ⟨hf, hp⟩ hd ha⟩
    | none => exact ⟨_, step_unrecognised ⟨hf, hp⟩ hd⟩
  · exact ⟨_, step_pcOutOfRange hf hp⟩

/-- Settles O17: the step did not fault or wait, so it ended with the tick, on the timers and events that the refresh
left. -/
theorem completedStepTicksOnce : Obligations.CompletedStepTicksOnce := by
  intro s t i hc hd hDT hST h hf hw
  obtain ⟨a, ha⟩ := exec_next i (s.refresh.latch s.fetchWord)
  have he := effect_of_exec ha
  rw [step_instr hc hd ha] at h
  obtain rfl := Host.Outcome.next.inj h
  obtain ⟨k, -, hs⟩ | ⟨-, haw, hs⟩ | ⟨-, -, hs⟩ := settle_cases s.refresh true a
  · simp [hs] at hf
  · simp [hs, haw] at hw
  · simp [hs, he.DT_eq hDT, he.ST_eq hST, he.port_eq]

/-- The step of an unrecognised word always completes (40_step_cycle R96). -/
theorem step_unrecognised_completed {s : State} (hc : s.CanFetch) (hd : decodeWord s.fetchWord = none) :
    step s = .next (((s.refresh.latch s.fetchWord).unrecognised s.fetchWord).timerTick.emit (.returned false)) := by
  have hf : ((s.refresh.latch s.fetchWord).unrecognised s.fetchWord).fault = none := hc.1
  rw [step_unrecognised hc hd, settle_done hf rfl]

/-- Settles O14: the completed step, element by element. -/
theorem unrecognisedWordAdvancesTicksAndReports : Obligations.UnrecognisedWordAdvancesTicksAndReports := by
  intro s hc hd
  refine ⟨_, step_unrecognised_completed hc hd, ?_⟩
  rw [timerTick_eq]
  exact ⟨rfl, rfl, rfl, countDown_toNat _, countDown_toNat _, rfl, rfl, fun _ => rfl⟩

end Sys2Proof.Machine
end

section
/-! SUPPORT. The key wait as a run: the state after some polls, held or ended, and the runs that lead to it
(40_step_cycle R99, 47_timer_key R182). -/

namespace Sys2Proof.Machine

/-- The state after `n` polls of the keys, the last of which gave `ks` and left the answers `rest`. -/
def State.polled (s : State) (ks : Keys) (rest : List Keys) (n : Nat) : State :=
  { s with
    keys := ks
    port := { samples := rest, sampleNo := s.port.sampleNo + n,
              events := List.replicate n .keySample ++ s.port.events } }

/-- The state held in a key wait after `n` polls without a key (40_step_cycle R99). -/
def State.heldAfter (s : State) (rest : List Keys) (n : Nat) : State :=
  ((s.polled 0 rest n).latch s.fetchWord).setWaiting true

/-- The state after a key wait into `V[x]` that took `n` polls, the last of which gave `ks` with its least key `j`
(47_timer_key R182). -/
def State.waitEnded (s : State) (x : Reg) (j : Nat) (ks : Keys) (rest : List Keys) (n : Nat) : State :=
  (((((s.polled ks rest n).latch s.fetchWord).setReg x (BitVec.ofNat 8 j)).setWaiting false).advance).timerTick.emit
    (.returned true)

variable {s : State} {x : Reg} {j k : Nat} {ks : Keys} {rest : List Keys}

/-- A refresh is one poll (40_step_cycle R91). -/
theorem refresh_eq_polled (h : s.port.samples = ks :: rest) : s.refresh = s.polled ks rest 1 := by
  simp [State.refresh, State.nextSample, State.polled, h]

/-- Polls add up. -/
theorem polled_polled (s : State) (ks ks' : Keys) (rest rest' : List Keys) (m n : Nat) :
    (s.polled ks rest m).polled ks' rest' n = s.polled ks' rest' (n + m) := by
  simp only [State.polled, ← List.append_assoc, List.replicate_append_replicate]
  rw [Nat.add_assoc, Nat.add_comm m n]

/-- A wait that is held again is held after all its polls: between them nothing else changed. -/
theorem heldAfter_heldAfter (s : State) (rest rest' : List Keys) (m n : Nat) :
    (s.heldAfter rest m).heldAfter rest' n = s.heldAfter rest' (n + m) :=
  congrArg (fun u => (u.latch s.fetchWord).setWaiting true) (polled_polled s 0 0 rest rest' m n)

/-- A held wait that ends has taken all its polls. -/
theorem heldAfter_waitEnded (s : State) (x : Reg) (j : Nat) (ks : Keys) (rest rest' : List Keys) (m n : Nat) :
    (s.heldAfter rest m).waitEnded x j ks rest' n = s.waitEnded x j ks rest' (n + m) := by
  rw [State.waitEnded, State.waitEnded, ← polled_polled s 0 ks rest]
  rfl

/-- One step of the wait on a sample with no key down. -/
theorem step_keyWait_held (hc : s.CanFetch) (hd : decodeWord s.fetchWord = some (.ldVxK x))
    (h : s.port.samples = 0 :: rest) : step s = .next (s.heldAfter rest 1) := by
  have hr := refresh_eq_polled h
  have hk : (s.refresh.latch s.fetchWord).keys = 0 := by rw [hr]; rfl
  have hf : ((s.refresh.latch s.fetchWord).setWaiting true).fault = none := hc.1
  rw [step_instr hc hd (exec_ldVxK_held (leastKeyDown_eq_none.2 hk)), settle_waiting hf rfl, hr]
  rfl

/-- One step of the wait on a sample whose least key down is `j`. -/
theorem step_keyWait_ended (hc : s.CanFetch) (hd : decodeWord s.fetchWord = some (.ldVxK x))
    (h : s.port.samples = ks :: rest) (hj : leastKeyDown ks = some j) :
    step s = .next (s.waitEnded x j ks rest 1) := by
  have hr := refresh_eq_polled h
  have hk : leastKeyDown (s.refresh.latch s.fetchWord).keys = some j := by rw [hr]; exact hj
  rw [step_completed hc hd (exec_ldVxK hk) hc.1 rfl, hr]
  rfl

/-- A run over samples with no key down leaves the wait held. -/
theorem run_keyWait_held (hc : s.CanFetch) (hd : decodeWord s.fetchWord = some (.ldVxK x))
    (h : s.port.samples = List.replicate (k + 1) 0 ++ rest) :
    Host.Core.run Sys2Proof.core (k + 1) s = .next (s.heldAfter rest (k + 1)) := by
  induction k generalizing s with
  | zero => exact run_succ (step_keyWait_held hc hd h)
  | succ k ih =>
    rw [List.replicate_succ, List.cons_append] at h
    rw [run_succ (step_keyWait_held hc hd h), ← heldAfter_heldAfter s _ rest 1 (k + 1)]
    exact ih hc hd rfl

/-- A run over `k` samples with no key down and one with a key ends the wait. -/
theorem run_keyWait_ended (hc : s.CanFetch) (hd : decodeWord s.fetchWord = some (.ldVxK x))
    (h : s.port.samples = List.replicate k 0 ++ ks :: rest) (hj : leastKeyDown ks = some j) :
    Host.Core.run Sys2Proof.core (k + 1) s = .next (s.waitEnded x j ks rest (k + 1)) := by
  induction k generalizing s with
  | zero => exact run_succ (step_keyWait_ended hc hd h hj)
  | succ k ih =>
    rw [List.replicate_succ, List.cons_append] at h
    rw [run_succ (step_keyWait_held hc hd h), ← heldAfter_waitEnded s x j ks _ rest 1 (k + 1)]
    exact ih hc hd rfl

/-- The whole of an ended wait, element by element (47_timer_key R182, 40_step_cycle R97, R99). -/
theorem waitEnded_eq (s : State) (x : Reg) (j : Nat) (ks : Keys) (rest : List Keys) (n : Nat) :
    s.waitEnded x j ks rest n =
      { s.setReg x (BitVec.ofNat 8 j) with
        pc := s.pc + 2, DT := countDown s.DT, ST := countDown s.ST, keys := ks, lastOpcode := s.fetchWord
        waiting := false
        port := { samples := rest, sampleNo := s.port.sampleNo + n,
                  events := .returned true :: (beeps s.ST ++ (List.replicate n .keySample ++ s.port.events)) } } := by
  rw [State.waitEnded, timerTick_eq]
  rfl

/-- An ended wait wrote the key into `V[x]` and left the other registers. -/
theorem waitEnded_reg (s : State) (x : Reg) (j : Nat) (ks : Keys) (rest : List Keys) (n : Nat) (r : Reg) :
    (s.waitEnded x j ks rest n).reg r = if r = x then BitVec.ofNat 8 j else s.reg r := by
  rw [waitEnded_eq]
  exact State.setReg_reg s x (BitVec.ofNat 8 j) r

/-- Settles O49: the first `m` samples show no key, and the run over all of them ends the wait. -/
theorem keyWaitEndsAtTheFirstSampleWithAKey : Obligations.KeyWaitEndsAtTheFirstSampleWithAKey := by
  intro x s k j ks rest hc hd h hj16 hj hlt
  have hleast : leastKeyDown ks = some j := leastKeyDown_eq_some.2 ⟨hj16, hj, hlt⟩
  constructor
  · intro m hm hmk
    obtain ⟨m, rfl⟩ := Nat.exists_eq_succ_of_ne_zero hm.ne'
    obtain ⟨d, rfl⟩ := Nat.exists_eq_add_of_le hmk
    rw [← List.replicate_append_replicate, List.append_assoc] at h
    exact ⟨_, run_keyWait_held hc hd h, rfl, rfl⟩
  · refine ⟨_, run_keyWait_ended hc hd h hleast, ?_⟩
    have hx : ((s.waitEnded x j ks rest (k + 1)).reg x).toNat = j := by
      rw [waitEnded_reg, if_pos rfl, BitVec.toNat_ofNat]
      omega
    have hne (r : Reg) (hr : r ≠ x) : (s.waitEnded x j ks rest (k + 1)).reg r = s.reg r := by
      rw [waitEnded_reg, if_neg hr]
    rw [waitEnded_eq] at hx hne ⊢
    exact ⟨rfl, hx, hne, rfl, countDown_toNat _, countDown_toNat _, rfl, rfl, rfl, rfl, rfl, rfl, fun _ => rfl⟩

end Sys2Proof.Machine
end

section
/-! SUPPORT. Unconditional control: the jump targets, the slots after a CALL, and what CLS, RET, JP, CALL and JP V0
leave (41_control R110 to R115). -/

namespace Sys2Proof.Machine

/-- A write of `pc` is a write of `pc` alone. -/
theorem onlyPc_setPc (s : State) (w : Word) : OnlyPc s (s.setPc w) := ⟨rfl, fun _ => rfl⟩

/-- The target of JP V0 does not wrap: it is at most 4095 plus 255 (41_control R114). -/
theorem zext16_add_zextByte_toNat (nnn : Addr12) (b : Byte) :
    (zext16 nnn + zextByte b).toNat = nnn.toNat + b.toNat := by
  rw [BitVec.toNat_add, zext16_toNat, zextByte_toNat]
  omega

/-- The slots that CALL leaves: its own address above the old `sp`, the others as before (41_control R113). -/
theorem call_slot (s : State) (nnn : Addr12) (k : Fin 16) :
    ((s.pushAt (s.sp + 1) s.pc).setPc (zext16 nnn)).slot k = if k = s.sp + 1 then s.pc else s.slot k := by
  rw [State.setPc_slot, State.pushAt_slot]

/-- Settles O21. -/
theorem clearScreenTurnsEveryCellOff : Obligations.ClearScreenTurnsEveryCellOff :=
  ⟨decodeWord_encodeWord .cls rfl, fun _ => ⟨_, rfl, Display.cell_blank, rfl, rfl, rfl, fun _ => rfl⟩⟩

/-- Settles O22: the fault at `sp = 0`, and with a slot to return to the state of `exec_ret`. -/
theorem returnReadsSlotThenDecrements : Obligations.ReturnReadsSlotThenDecrements :=
  ⟨decodeWord_encodeWord .ret rfl, fun _ h => exec_raises (.ret h), fun _ h =>
    ⟨_, exec_ret h, BitVec.toNat_add _ _, Fin.val_sub_one_of_ne_zero h, rfl, fun _ => rfl⟩⟩

/-- Settles O23. -/
theorem jumpGoesToItsAddress : Obligations.JumpGoesToItsAddress :=
  fun nnn s => ⟨decodeWord_encodeWord (.jp nnn) rfl, _, rfl, zext16_toNat nnn, onlyPc_setPc s _⟩

/-- Settles O24: the fault at `sp = 15`, and with a free slot the state of `exec_call`. -/
theorem callSavesItsOwnAddress : Obligations.CallSavesItsOwnAddress := by
  refine ⟨fun nnn => decodeWord_encodeWord (.call nnn) rfl, fun nnn s h => exec_raises (.call nnn h), fun nnn s h => ?_⟩
  have hsp : (s.sp + 1).val = s.sp.val + 1 := Fin.val_add_one_of_lt (Fin.lt_last_iff_ne_last.2 h)
  exact ⟨_, exec_call h, hsp, (call_slot s nnn _).trans (if_pos rfl), fun k hk => (call_slot s nnn k).trans (if_neg hk),
    zext16_toNat nnn, rfl, fun _ => rfl⟩

/-- Settles O25. -/
theorem jumpWithOffsetAddsRegisterZero : Obligations.JumpWithOffsetAddsRegisterZero :=
  fun nnn s => ⟨decodeWord_encodeWord (.jpV0 nnn) rfl, _, rfl, zext16_add_zextByte_toNat nnn _, onlyPc_setPc s _⟩

/-- Settles O26: the CALL leaves `sp` at a slot that is not slot 0 and holds the CALL's address, so the RET reads that slot
and steps `sp` back. -/
theorem returnUndoesCall : Obligations.ReturnUndoesCall := by
  intro nnn s h
  refine ⟨_, exec_call h, fun t' hstack hsp => ?_⟩
  rw [State.setPc_sp, State.pushAt_sp] at hsp
  have hslot : t'.slot t'.sp = s.pc := by
    rw [hsp, State.slot, hstack]
    exact (call_slot s nnn _).trans (if_pos rfl)
  have hne : t'.sp ≠ 0 := hsp ▸ (zero_ne_add_one s.sp h).symm
  refine ⟨_, exec_ret hne, congrArg (· + 2) hslot, ?_⟩
  rw [State.setSp_sp, hsp, add_sub_cancel_right]

end Sys2Proof.Machine
end

section
/-! SUPPORT. Conditional skips: what a skip on an equality, or on its negation, leaves, and the tests of SE, SNE, SKP and
SKNP (42_skip R120 to R126). -/

namespace Sys2Proof.Machine

/-- A skip is taken when its test holds (40_step_cycle R95). -/
theorem skipIf_pc_of_eq_true {s : State} {test : Bool} (h : test = true) : (s.skipIf test).pc = s.pc + 4 := if_pos h

/-- Without its test a skip is the sequential advance (40_step_cycle R95). -/
theorem skipIf_pc_of_eq_false {s : State} {test : Bool} (h : test = false) : (s.skipIf test).pc = s.pc + 2 :=
  if_neg (ne_true_of_eq_false h)

/-- A skip on an equality (42_skip R120, R122). -/
theorem skipIf_beq (s : State) (a b : Byte) :
    (a = b → (s.skipIf (a == b)).pc = s.pc + 4) ∧ (a ≠ b → (s.skipIf (a == b)).pc = s.pc + 2) ∧
      OnlyPc s (s.skipIf (a == b)) :=
  ⟨fun h => skipIf_pc_of_eq_true (beq_iff_eq.2 h), fun h => skipIf_pc_of_eq_false (beq_eq_false_iff_ne.2 h),
    onlyPc_setPc s _⟩

/-- A skip on a difference (42_skip R121, R123). -/
theorem skipIf_bne (s : State) (a b : Byte) :
    (a ≠ b → (s.skipIf (a != b)).pc = s.pc + 4) ∧ (a = b → (s.skipIf (a != b)).pc = s.pc + 2) ∧
      OnlyPc s (s.skipIf (a != b)) :=
  ⟨fun h => skipIf_pc_of_eq_true (bne_iff_ne.2 h), fun h => skipIf_pc_of_eq_false (bne_eq_false_iff_eq.2 h),
    onlyPc_setPc s _⟩

/-- Of two skips on opposite tests exactly one is taken (42_skip R126). -/
theorem skipIf_pc_not (s : State) (test : Bool) :
    ((s.skipIf test).pc = s.pc + 4 ∧ (s.skipIf !test).pc = s.pc + 2) ∨
      ((s.skipIf test).pc = s.pc + 2 ∧ (s.skipIf !test).pc = s.pc + 4) := by
  cases test with
  | true => exact .inl ⟨rfl, rfl⟩
  | false => exact .inr ⟨rfl, rfl⟩

/-- SKNP tests the opposite of what SKP tests (42_skip R125). -/
theorem exec_sknp_not {s : State} {x : Reg} (h : (s.reg x).toNat ≤ 15) :
    exec (.sknp x) s = .next (s.skipIf !(keyDown s.keys (s.reg x).toNat == true)) := by
  rw [exec_sknp h, beq_true, beq_false]

/-- Settles O27. -/
theorem skipsOnImmediateComparison : Obligations.SkipsOnImmediateComparison :=
  fun x nn s => ⟨decodeWord_encodeWord (.seImm x nn) rfl, decodeWord_encodeWord (.sneImm x nn) rfl,
    ⟨_, rfl, skipIf_beq s (s.reg x) nn⟩, ⟨_, rfl, skipIf_bne s (s.reg x) nn⟩⟩

/-- Settles O28. -/
theorem skipsOnRegisterComparison : Obligations.SkipsOnRegisterComparison :=
  fun x y s => ⟨decodeWord_encodeWord (.seReg x y) rfl, decodeWord_encodeWord (.sneReg x y) rfl,
    ⟨_, rfl, skipIf_beq s (s.reg x) (s.reg y)⟩, ⟨_, rfl, skipIf_bne s (s.reg x) (s.reg y)⟩⟩

/-- Settles O29: the skip on a key that exists, and the fault on one that does not. -/
theorem skipsOnKeyState : Obligations.SkipsOnKeyState := by
  intro x s
  refine ⟨decodeWord_encodeWord (.skp x) rfl, decodeWord_encodeWord (.sknp x) rfl, fun h => ?_, fun h => ?_, fun h => ?_⟩
  · exact ⟨_, exec_skp h, onlyPc_setPc s _, fun hdown => skipIf_pc_of_eq_true (beq_iff_eq.2 hdown),
      fun hup => skipIf_pc_of_eq_false (beq_eq_false_iff_ne.2 (ne_true_of_eq_false hup))⟩
  · exact ⟨_, exec_sknp h, onlyPc_setPc s _, fun hup => skipIf_pc_of_eq_true (beq_iff_eq.2 hup),
      fun hdown => skipIf_pc_of_eq_false (beq_eq_false_iff_ne.2 (ne_false_of_eq_true hdown))⟩
  · exact ⟨exec_raises (.skp x h), exec_raises (.sknp x h)⟩

/-- Settles O30: the two instructions of a pair are skips on opposite tests. -/
theorem skipPairsAreComplements : Obligations.SkipPairsAreComplements := by
  intro i j s t u hij ht hu
  have hopposite : ∃ test, exec i s = .next (s.skipIf test) ∧ exec j s = .next (s.skipIf !test) := by
    obtain ⟨x, nn, rfl, rfl⟩ | ⟨x, y, rfl, rfl⟩ | ⟨x, rfl, rfl, hx⟩ := hij
    · exact ⟨_, rfl, rfl⟩
    · exact ⟨_, rfl, rfl⟩
    · exact ⟨_, exec_skp hx, exec_sknp_not hx⟩
  obtain ⟨test, hi, hj⟩ := hopposite
  obtain rfl := Host.Outcome.next.inj (ht.symm.trans hi)
  obtain rfl := Host.Outcome.next.inj (hu.symm.trans hj)
  exact skipIf_pc_not s test

end Sys2Proof.Machine
end

section
/-! SUPPORT. Loads and arithmetic: what an instruction leaves that writes a register, a register and then the flag, or
`I`, and the values as numbers (43_load_arith R130 to R144). -/

namespace Sys2Proof.Machine

/-- A result is what the destination holds afterwards. -/
theorem result_reg_self (s : State) (x : Reg) (b : Byte) : (s.result x b).reg x = b :=
  (State.setReg_reg s x b x).trans (if_pos rfl)

/-- An instruction that writes no flag leaves every register but its destination. -/
theorem onlyReg_result (s : State) (x : Reg) (b : Byte) : OnlyReg s (s.result x b) x :=
  ⟨rfl, fun _ => rfl, fun r h => State.setReg_reg_ne s x r b h⟩

/-- The flag is written last, so it stays whatever the destination is (43_load_arith R144). -/
theorem resultFlag_reg_flag (s : State) (x : Reg) (b : Byte) (f : Bool) : (s.resultFlag x b f).reg 15 = flagByte f :=
  (State.setReg_reg (s.setReg x b) 15 (flagByte f) 15).trans (if_pos rfl)

/-- A destination that is not the flag register keeps its result. -/
theorem resultFlag_reg_self (s : State) {x : Reg} (b : Byte) (f : Bool) (h : x ≠ 15) :
    (s.resultFlag x b f).reg x = b :=
  (State.setReg_reg_ne (s.setReg x b) 15 x (flagByte f) h).trans (result_reg_self s x b)

/-- An instruction that writes the flag leaves every register but the flag and its destination. -/
theorem onlyRegFlag_resultFlag (s : State) (x : Reg) (b : Byte) (f : Bool) : OnlyRegFlag s (s.resultFlag x b f) x :=
  ⟨rfl, fun _ => rfl, fun r hx hf =>
    (State.setReg_reg_ne (s.setReg x b) 15 r (flagByte f) hf).trans (State.setReg_reg_ne s x r b hx)⟩

/-- A write of `I` and the sequential advance leave all else. -/
theorem onlyIndex_setI_advance (s : State) (w : Word) : OnlyIndex s (s.setI w).advance := ⟨rfl, fun _ => rfl⟩

/-- A difference of bytes on integers: it wraps at 0 (43_load_arith R135, R137). -/
theorem byte_sub_toNat (a b : Byte) : ((a - b).toNat : Int) = ((a.toNat : Int) - b.toNat) % 256 := by
  rw [BitVec.toNat_sub]
  omega

/-- A shift left by one position on integers: bit 7 is lost (43_load_arith R138). -/
theorem byte_shiftLeft_one_toNat (a : Byte) : (a <<< 1).toNat = a.toNat * 2 % 256 := by
  rw [BitVec.toNat_shiftLeft, Nat.shiftLeft_eq, pow_one]

/-- A comparison as a flag is 1 exactly when it holds. -/
theorem flagByte_decide_toNat (p : Prop) [Decidable p] : (flagByte (decide p)).toNat = if p then 1 else 0 := by
  rw [flagByte_toNat]
  simp only [decide_eq_true_eq]

/-- The carry flag as a number (43_load_arith R134). -/
theorem flagByte_carryFlag_toNat (a b : Byte) :
    (flagByte (carryFlag a b)).toNat = if 255 < a.toNat + b.toNat then 1 else 0 :=
  flagByte_decide_toNat _

/-- The flag of a subtraction as a number (43_load_arith R135, R137). -/
theorem flagByte_greaterFlag_toNat (a b : Byte) :
    (flagByte (greaterFlag a b)).toNat = if b.toNat < a.toNat then 1 else 0 :=
  flagByte_decide_toNat _

/-- A bit as a flag is that bit of the number. -/
theorem flagByte_getLsbD_toNat (a : Byte) (k : Nat) : (flagByte (a.getLsbD k)).toNat = a.toNat / 2 ^ k % 2 := by
  rw [← BitVec.testBit_toNat, flagByte_toNat, ← Nat.toNat_testBit]
  cases a.toNat.testBit k <;> rfl

/-- The bit that SHR shifts out as a number (43_load_arith R136). -/
theorem flagByte_shiftRightFlag_toNat (a : Byte) : (flagByte (shiftRightFlag a)).toNat = a.toNat % 2 :=
  (flagByte_getLsbD_toNat a 0).trans (by omega)

/-- The bit that SHL shifts out as a number: bit 7 is the highest (43_load_arith R138). -/
theorem flagByte_shiftLeftFlag_toNat (a : Byte) : (flagByte (shiftLeftFlag a)).toNat = a.toNat / 128 :=
  (flagByte_getLsbD_toNat a 7).trans (by omega)

/-- Settles O31. -/
theorem assignAndSetImmediate : Obligations.AssignAndSetImmediate :=
  fun x y nn s => ⟨decodeWord_encodeWord (.ldReg x y) rfl, decodeWord_encodeWord (.ldImm x nn) rfl,
    ⟨_, rfl, result_reg_self s x _, rfl, onlyReg_result s x _⟩,
    ⟨_, rfl, result_reg_self s x _, rfl, onlyReg_result s x _⟩⟩

/-- Settles O32: each result is the whole-byte operation, read bit by bit. -/
theorem bitwiseOperationsLeaveTheFlag : Obligations.BitwiseOperationsLeaveTheFlag := by
  intro x y s
  refine ⟨decodeWord_encodeWord (.orReg x y) rfl, decodeWord_encodeWord (.andReg x y) rfl,
    decodeWord_encodeWord (.xorReg x y) rfl, ⟨_, rfl, rfl, onlyReg_result s x _, fun b => ?_⟩,
    ⟨_, rfl, rfl, onlyReg_result s x _, fun b => ?_⟩, ⟨_, rfl, rfl, onlyReg_result s x _, fun b => ?_⟩⟩
  · rw [result_reg_self, BitVec.getLsbD_or]
  · rw [result_reg_self, BitVec.getLsbD_and]
  · rw [result_reg_self, BitVec.getLsbD_xor]

/-- Settles O33. -/
theorem addSetsCarryLast : Obligations.AddSetsCarryLast := by
  intro x y s
  refine ⟨decodeWord_encodeWord (.addReg x y) rfl, _, rfl, rfl, onlyRegFlag_resultFlag s x _ _, fun h => ?_, ?_⟩
  · rw [resultFlag_reg_self s _ _ h, BitVec.toNat_add]
  · rw [resultFlag_reg_flag, flagByte_carryFlag_toNat]

/-- Settles O34: SUB and SUBN are the one subtraction with its operands exchanged. -/
theorem subtractsSetStrictlyGreaterLast : Obligations.SubtractsSetStrictlyGreaterLast := by
  intro x y s
  refine ⟨decodeWord_encodeWord (.subReg x y) rfl, decodeWord_encodeWord (.subnReg x y) rfl,
    ⟨_, rfl, rfl, onlyRegFlag_resultFlag s x _ _, fun h => ?_, ?_⟩,
    ⟨_, rfl, rfl, onlyRegFlag_resultFlag s x _ _, fun h => ?_, ?_⟩⟩
  · rw [resultFlag_reg_self s _ _ h, byte_sub_toNat]
  · rw [resultFlag_reg_flag, flagByte_greaterFlag_toNat]
  · rw [resultFlag_reg_self s _ _ h, byte_sub_toNat]
  · rw [resultFlag_reg_flag, flagByte_greaterFlag_toNat]

/-- Settles O35. -/
theorem shiftsMoveOneBitIntoTheFlag : Obligations.ShiftsMoveOneBitIntoTheFlag := by
  intro x y s
  refine ⟨decodeWord_encodeWord (.shr x y) rfl, decodeWord_encodeWord (.shl x y) rfl,
    ⟨_, rfl, rfl, onlyRegFlag_resultFlag s x _ _, fun h => ?_, ?_⟩,
    ⟨_, rfl, rfl, onlyRegFlag_resultFlag s x _ _, fun h => ?_, ?_⟩⟩
  · rw [resultFlag_reg_self s _ _ h, BitVec.toNat_ushiftRight, Nat.shiftRight_one]
  · rw [resultFlag_reg_flag, flagByte_shiftRightFlag_toNat]
  · rw [resultFlag_reg_self s _ _ h, byte_shiftLeft_one_toNat]
  · rw [resultFlag_reg_flag, flagByte_shiftLeftFlag_toNat]

/-- Settles O36. -/
theorem addImmediateWritesNoFlag : Obligations.AddImmediateWritesNoFlag := by
  intro x nn s
  refine ⟨decodeWord_encodeWord (.addImm x nn) rfl, _, rfl, rfl, onlyReg_result s x _, ?_⟩
  rw [result_reg_self, BitVec.toNat_add]

/-- ADD I, Vx on integers: it wraps at 65536 (43_load_arith R142). -/
theorem add_zextByte_toNat (w : Word) (b : Byte) : (w + zextByte b).toNat = (w.toNat + b.toNat) % 65536 := by
  rw [BitVec.toNat_add, zextByte_toNat]

/-- A glyph's address fits in 16 bits for every byte (46_memory_ops R170). -/
theorem ofNat_toNat_mul_five (b : Byte) : (BitVec.ofNat 16 (b.toNat * 5)).toNat = b.toNat * 5 :=
  (BitVec.toNat_ofNat _ _).trans (Nat.mod_eq_of_lt (by omega))

/-- Settles O37. -/
theorem indexRegisterWrites : Obligations.IndexRegisterWrites :=
  fun x nnn s => ⟨decodeWord_encodeWord (.ldI nnn) rfl, decodeWord_encodeWord (.addI x) rfl,
    decodeWord_encodeWord (.ldF x) rfl, ⟨_, rfl, zext16_toNat nnn, rfl, onlyIndex_setI_advance s _⟩,
    ⟨_, rfl, add_zextByte_toNat s.I (s.reg x), rfl, onlyIndex_setI_advance s _⟩,
    ⟨_, rfl, ofNat_toNat_mul_five (s.reg x), rfl, onlyIndex_setI_advance s _⟩⟩

end Sys2Proof.Machine
end

section
/-! SUPPORT. The generator and RND (44_random R150 to R154): the masked bytes follow the generator's state alone, and a
xorshift of the default generator sends no word but 0 to 0. -/

namespace Sys2Proof.Machine

/-- RND leaves the advanced state with the masked byte as a result in its destination (44_random R151). -/
theorem exec_rnd (x : Reg) (nn : Byte) (s : State) :
    exec (.rnd x nn) s = .next (s.rngAdvanced.result x (s.maskedByte nn)) := rfl

/-- States that agree on `rng` give the same masked bytes: each byte, and each next `rng`, is made from `rng` alone
(44_random R150). -/
theorem maskedBytes_congr (masks : List Byte) :
    ∀ {s t : State}, s.rng = t.rng → s.maskedBytes masks = t.maskedBytes masks := by
  induction masks with
  | nil => exact fun _ => rfl
  | cons m ms ih =>
    intro s t h
    have hbyte : s.maskedByte m = t.maskedByte m := congrArg (fun w => rngByte (rngNext w) &&& m) h
    have hrng : s.rngAdvanced.rng = t.rngAdvanced.rng := congrArg rngNext h
    exact congrArg₂ List.cons hbyte (ih hrng)

/-- A word equal to itself shifted left is 0: each bit is a lower one or a shifted-in 0. -/
theorem eq_zero_of_eq_shiftLeft {n k : Nat} {w : BitVec n} (hk : 0 < k) (h : w = w <<< k) : w = 0 := by
  have hbit : ∀ i, w.getLsbD i = false := by
    intro i
    induction i using Nat.strong_induction_on with
    | _ i ih =>
      rw [h, BitVec.getLsbD_shiftLeft]
      by_cases hi : i < k
      · simp [hi]
      · simp [ih (i - k) (by omega)]
  exact BitVec.eq_of_getLsbD_eq fun i _ => by rw [hbit]; simp

/-- A word equal to itself shifted right is 0: the shift makes every other number smaller. -/
theorem eq_zero_of_eq_ushiftRight {n k : Nat} {w : BitVec n} (hk : 0 < k) (h : w = w >>> k) : w = 0 := by
  by_contra hw
  have hpos : 0 < w.toNat := Nat.pos_of_ne_zero fun h0 => hw (BitVec.eq_of_toNat_eq h0)
  have hdiv : w.toNat = w.toNat / 2 ^ k := by
    rw [← Nat.shiftRight_eq_div_pow, ← BitVec.toNat_ushiftRight, ← h]
  exact (Nat.div_lt_self hpos (Nat.one_lt_two_pow hk.ne')).ne hdiv.symm

/-- A left xorshift sends only 0 to 0. -/
theorem xor_shiftLeft_eq_zero_iff {n k : Nat} (hk : 0 < k) (w : BitVec n) : w ^^^ (w <<< k) = 0 ↔ w = 0 :=
  ⟨fun h => eq_zero_of_eq_shiftLeft hk (BitVec.xor_eq_zero_iff.mp h), fun h => by simp [h]⟩

/-- A right xorshift sends only 0 to 0. -/
theorem xor_ushiftRight_eq_zero_iff {n k : Nat} (hk : 0 < k) (w : BitVec n) : w ^^^ (w >>> k) = 0 ↔ w = 0 :=
  ⟨fun h => eq_zero_of_eq_ushiftRight hk (BitVec.xor_eq_zero_iff.mp h), fun h => by simp [h]⟩

/-- The default generator sends only 0 to 0, as each of its three xorshifts does (44_random R152). -/
theorem defaultRngNext_eq_zero_iff (w : RngWord) : defaultRngNext w = 0 ↔ w = 0 := by
  let a := w ^^^ (w <<< 13)
  let b := a ^^^ (a >>> 17)
  calc b ^^^ (b <<< 5) = 0
    _ ↔ b = 0 := xor_shiftLeft_eq_zero_iff (by decide) b
    _ ↔ a = 0 := xor_ushiftRight_eq_zero_iff (by decide) a
    _ ↔ w = 0 := xor_shiftLeft_eq_zero_iff (by decide) w

/-- Settles O39: two states seeded alike agree on `rng`. -/
theorem maskedBytesDependOnSeedAndMasksAlone : Obligations.MaskedBytesDependOnSeedAndMasksAlone :=
  fun w masks s t => maskedBytes_congr masks (s := s.hostSeed w) (t := t.hostSeed w) rfl

/-- Settles O40: the two values by evaluation, the fixed point by the three xorshifts. -/
theorem defaultGeneratorSendsOnlyZeroToZero : Obligations.DefaultGeneratorSendsOnlyZeroToZero :=
  ⟨by decide, by decide, defaultRngNext_eq_zero_iff⟩

/-- Settles O38: RND is the advance of the generator, then an instruction with one result. -/
theorem randomMasksTheNextByte : Obligations.RandomMasksTheNextByte := by
  intro x nn s
  obtain ⟨-, -, hregs⟩ := onlyReg_result s.rngAdvanced x (s.maskedByte nn)
  exact ⟨decodeWord_encodeWord (.rnd x nn) rfl, _, exec_rnd x nn s, rfl, result_reg_self s.rngAdvanced x _, rfl, hregs,
    rfl, fun _ => rfl⟩

end Sys2Proof.Machine
end

section
/-! SUPPORT. Sprite draw: the pixels of a sprite lie on different cells, so a draw flips each covered cell once; then one
draw and two draws at the same place (45_draw R160 to R164). -/

namespace Sys2Proof.Machine

variable {s : State} {x y : Reg} {n : Nat} {c : Cell}

/-- Pixels of a sprite on one cell are the same pixel: rows differ modulo 32 and columns modulo 64 (45_draw R162). -/
theorem cellAt_inj_of_lt {x0 y0 r r' col col' : Nat} (hr : r < 32) (hr' : r' < 32) (hcol : col < 64) (hcol' : col' < 64)
    (h : cellAt (x0 + col) (y0 + r) = cellAt (x0 + col') (y0 + r')) : r = r' ∧ col = col' := by
  have hval : (y0 + r) % 32 * 64 + (x0 + col) % 64 = (y0 + r') % 32 * 64 + (x0 + col') % 64 := congrArg Fin.val h
  omega

/-- Every cell is touched at most once within one draw (45_draw R162). -/
theorem spritePixels_pairwise_ne (m : Memory) (base x0 y0 : Nat) (hn : n ≤ 32) :
    (spritePixels m base x0 y0 n).Pairwise (fun p q => p.2 ≠ q.2) := by
  refine List.pairwise_flatMap.2 ⟨fun r hr => List.pairwise_map.2 ?_, ?_⟩
  · have hrow : r < n := List.mem_range.1 hr
    refine (List.pairwise_lt_range (n := 8)).imp_of_mem fun ha hb hab h => ?_
    rw [List.mem_range] at ha hb
    exact hab.ne (cellAt_inj_of_lt (by omega) (by omega) (by omega) (by omega) h).2
  · refine (List.pairwise_lt_range (n := n)).imp_of_mem fun ha hb hab p hp q hq h => ?_
    obtain ⟨cp, hcp, rfl⟩ := List.mem_map.1 hp
    obtain ⟨cq, hcq, rfl⟩ := List.mem_map.1 hq
    rw [List.mem_range] at ha hb hcp hcq
    exact hab.ne (cellAt_inj_of_lt (by omega) (by omega) (by omega) (by omega) h).1

/-- The set pixels of a sprite are those on the cells it covers (45_draw R160, R163). -/
theorem mem_spritePixels_iff (s : State) (x0 y0 n : Nat) (c : Cell) :
    (true, c) ∈ spritePixels s.mem s.I.toNat x0 y0 n ↔ SpriteCovers s x0 y0 n c := by
  simp only [spritePixels, SpriteCovers, List.mem_flatMap, List.mem_map, List.mem_range, Prod.mk.injEq, Fin.ext_iff,
    pixelOn, cellAt, @eq_comm Nat c.val]

/-- What a draw does: it flips the cells of the sprite's set pixels, and hits when one of them was on (45_draw R161). -/
theorem drawn_spec (s : State) (x y : Reg) (hn : n ≤ 32) :
    (∀ c, Display.cell (s.drawn x y n).disp c = (Display.cell s.disp c).xor
      (decide ((true, c) ∈ spritePixels s.mem s.I.toNat (s.reg x).toNat (s.reg y).toNat n))) ∧
    (s.drawn x y n).hit = (spritePixels s.mem s.I.toNat (s.reg x).toNat (s.reg y).toNat n).any
      (fun p => p.1 && Display.cell s.disp p.2) := by
  have hne := spritePixels_pairwise_ne s.mem s.I.toNat (s.reg x).toNat (s.reg y).toNat hn
  have h := Canvas.pixels_spec _ hne ⟨s.disp, false⟩
  rwa [← Canvas.sprite_eq, Bool.false_or] at h

/-- A covered cell is flipped (45_draw R161). -/
theorem drawn_cell_of_covers (hn : n ≤ 32) (h : SpriteCovers s (s.reg x).toNat (s.reg y).toNat n c) :
    Display.cell (s.drawn x y n).disp c = !Display.cell s.disp c := by
  rw [(drawn_spec s x y hn).1, decide_eq_true ((mem_spritePixels_iff ..).2 h), Bool.xor_true]

/-- Every other cell is kept (45_draw R161). -/
theorem drawn_cell_of_not_covers (hn : n ≤ 32) (h : ¬SpriteCovers s (s.reg x).toNat (s.reg y).toNat n c) :
    Display.cell (s.drawn x y n).disp c = Display.cell s.disp c := by
  rw [(drawn_spec s x y hn).1, decide_eq_false (mt (mem_spritePixels_iff ..).1 h), Bool.xor_false]

/-- A draw hits exactly when a covered cell was on (45_draw R162). -/
theorem drawn_hit_iff (hn : n ≤ 32) : (s.drawn x y n).hit = true ↔
    ∃ c, SpriteCovers s (s.reg x).toNat (s.reg y).toNat n c ∧ Display.cell s.disp c = true := by
  simp only [(drawn_spec s x y hn).2, List.any_eq_true, Bool.and_eq_true, ← mem_spritePixels_iff, Prod.exists]
  constructor
  · rintro ⟨on, c, hmem, rfl, hc⟩
    exact ⟨c, hmem, hc⟩
  · rintro ⟨c, hmem, hc⟩
    exact ⟨true, c, hmem, rfl, hc⟩

/-- A flag that says `P` is 1 when `P` holds and else 0 (10_state R22). -/
theorem flagByte_of_iff {f : Bool} {P : Prop} (h : f = true ↔ P) : (P → flagByte f = 1) ∧ (¬P → flagByte f = 0) :=
  ⟨fun hp => if_pos (h.2 hp), fun hp => if_neg (mt h.1 hp)⟩

/-- The state that DRW leaves when its rows lie in memory (45_draw R161). -/
def State.afterDraw (s : State) (x y : Reg) (n : Nat) : State :=
  ((s.paint (s.drawn x y n).disp).setFlag (s.drawn x y n).hit).advance

/-- A DRW that completes without a fault has its rows in memory and leaves `State.afterDraw` (45_draw R161). -/
theorem drw_completed {t : State} (h : exec (.drw x y n) s = .next t) (hf : t.fault = none) :
    (n = 0 ∨ s.I.toNat + n ≤ 4096) ∧ t = s.afterDraw x y n := by
  by_cases hfit : n = 0 ∨ s.I.toNat + n ≤ 4096
  · exact ⟨hfit, Host.Outcome.next.inj (h.symm.trans (exec_drw hfit))⟩
  · obtain rfl := Host.Outcome.next.inj (h.symm.trans (exec_raises (.drw x y n hfit)))
    nomatch hf

/-- The flag register after a draw holds its hit. -/
theorem afterDraw_reg_flag (s : State) (x y : Reg) (n : Nat) :
    (s.afterDraw x y n).reg 15 = flagByte (s.drawn x y n).hit :=
  (State.setReg_reg (s.paint _) 15 _ 15).trans (if_pos rfl)

/-- A draw keeps every register but the flag. -/
theorem afterDraw_reg_ne (s : State) (x y : Reg) (n : Nat) {r : Reg} (h : r ≠ 15) : (s.afterDraw x y n).reg r = s.reg r :=
  State.setReg_reg_ne (s.paint _) 15 r _ h

/-- Settles O41: the fault when a row lies above 4095, and else the state of `State.afterDraw`, cell by cell. -/
theorem spriteDrawFlipsCoveredCells : Obligations.SpriteDrawFlipsCoveredCells := by
  intro x y n s hn
  have hn32 : n ≤ 32 := by omega
  have hflag := flagByte_of_iff (drawn_hit_iff (s := s) (x := x) (y := y) hn32)
  rw [← afterDraw_reg_flag] at hflag
  refine ⟨decodeWord_encodeWord (.drw x y n) (decide_eq_true hn), fun h => exec_raises (.drw x y n (by omega)), fun h => ?_⟩
  exact ⟨s.afterDraw x y n, exec_drw (by omega), fun _ => drawn_cell_of_covers hn32, fun _ => drawn_cell_of_not_covers hn32,
    hflag.1, hflag.2, fun _ => afterDraw_reg_ne s x y n, rfl, rfl, rfl, fun _ => rfl⟩

section Twice

variable (hx : (s.afterDraw x y n).reg x = s.reg x) (hy : (s.afterDraw x y n).reg y = s.reg y)
include hx hy

/-- A draw keeps memory and `I`, so at the same place a second one covers the same cells (45_draw R164). -/
theorem afterDraw_covers_iff :
    SpriteCovers (s.afterDraw x y n) ((s.afterDraw x y n).reg x).toNat ((s.afterDraw x y n).reg y).toNat n c ↔
      SpriteCovers s (s.reg x).toNat (s.reg y).toNat n c := by
  rw [hx, hy]
  rfl

/-- A sprite drawn twice at the same place restores the display: a covered cell is flipped twice (45_draw R164). -/
theorem drawn_afterDraw_disp (hn : n ≤ 32) : ((s.afterDraw x y n).drawn x y n).disp = s.disp := by
  refine Display.ext_cell fun c => ?_
  by_cases h : SpriteCovers s (s.reg x).toNat (s.reg y).toNat n c
  · calc Display.cell ((s.afterDraw x y n).drawn x y n).disp c
      _ = !Display.cell (s.drawn x y n).disp c := drawn_cell_of_covers hn ((afterDraw_covers_iff hx hy).2 h)
      _ = !!Display.cell s.disp c := congrArg not (drawn_cell_of_covers hn h)
      _ = Display.cell s.disp c := Bool.not_not _
  · calc Display.cell ((s.afterDraw x y n).drawn x y n).disp c
      _ = Display.cell (s.drawn x y n).disp c := drawn_cell_of_not_covers hn (mt (afterDraw_covers_iff hx hy).1 h)
      _ = Display.cell s.disp c := drawn_cell_of_not_covers hn h

/-- The second draw hits exactly when a covered cell was off before the first, which turned it on (log 13). -/
theorem drawn_afterDraw_hit_iff (hn : n ≤ 32) : ((s.afterDraw x y n).drawn x y n).hit = true ↔
    ∃ c, SpriteCovers s (s.reg x).toNat (s.reg y).toNat n c ∧ Display.cell s.disp c = false := by
  rw [drawn_hit_iff hn]
  refine exists_congr fun c => ?_
  rw [afterDraw_covers_iff hx hy]
  refine and_congr_right fun h => ?_
  rw [← Bool.not_eq_true', ← drawn_cell_of_covers hn h]
  rfl

end Twice

/-- Settles O42: the first draw left its rows in memory, so the second completes too. -/
theorem drawingTwiceRestoresTheDisplay : Obligations.DrawingTwiceRestoresTheDisplay := by
  intro x y n s t u hn _ ht hf hx hy hu
  have hn32 : n ≤ 32 := by omega
  obtain ⟨hfit, rfl⟩ := drw_completed ht hf
  obtain rfl : u = (s.afterDraw x y n).afterDraw x y n := Host.Outcome.next.inj (hu.symm.trans (exec_drw hfit))
  rw [afterDraw_reg_flag]
  exact ⟨drawn_afterDraw_disp hx hy hn32, flagByte_of_iff (drawn_afterDraw_hit_iff hx hy hn32)⟩

end Sys2Proof.Machine
end

section
/-! SUPPORT. Index-addressed memory: what a block stored at `I` up leaves in memory; then LD B, LD [I], Vx,
LD Vx, [I] and the round trip of the last two (46_memory_ops R171 to R174). -/

namespace Sys2Proof.Machine

variable {s : State} {bs : List Byte}

/-- Byte `k` of a block stored at `I` up (20_memory R54). -/
theorem read_stored (hm : s.mem.wf = true) (hI : s.I.toNat + bs.length ≤ 4096) {k : Nat} (hk : k < bs.length) :
    (s.stored bs).read (s.I.toNat + k) = bs[k] := by
  have hread := Memory.read_writeBytes (c := s.I.toNat + k) hI hm
  rw [dif_pos (by omega)] at hread
  exact hread.trans (getElem_congr_idx (Nat.add_sub_cancel_left ..))

/-- A block stored at `I` up leaves the bytes outside it (20_memory R54). -/
theorem sameMemoryOutside_stored (hm : s.mem.wf = true) (hI : s.I.toNat + bs.length ≤ 4096) :
    SameMemoryOutside s (s.setMem (s.stored bs)).advance s.I.toNat bs.length :=
  fun _ ha => (Memory.read_writeBytes hI hm).trans (dif_neg (by omega))

/-- Settles O43: the fault when a digit lies above 4095, and else the digits as a block at `I`, each small enough for a
byte. -/
theorem bcdStoreWritesThreeDigits : Obligations.BcdStoreWritesThreeDigits := by
  intro x s hm
  refine ⟨decodeWord_encodeWord (.ldB x) rfl, fun h => exec_raises (.ldB x (Nat.not_le.2 h)), fun h => ?_⟩
  have hI : s.I.toNat + (bcdDigits (s.reg x)).length ≤ 4096 := Nat.succ_le_succ h
  have hdigit (k : Nat) (hk : k < 3) :
      ((s.stored (bcdDigits (s.reg x))).read (s.I.toNat + k)).toNat = (bcdDigits (s.reg x))[k].toNat :=
    congrArg BitVec.toNat (read_stored hm hI hk)
  refine ⟨_, exec_ldB h, (hdigit 0 (by decide)).trans ?_, (hdigit 1 (by decide)).trans ?_,
    (hdigit 2 (by decide)).trans ?_, sameMemoryOutside_stored hm hI, rfl, rfl⟩ <;>
    exact (BitVec.toNat_ofNat _ _).trans (Nat.mod_eq_of_lt (by omega))

/-- Settles O44: the fault when a byte lies above 4095, and else the registers as a block at `I`. -/
theorem registerDumpStoresInOrder : Obligations.RegisterDumpStoresInOrder := by
  intro x s hm
  refine ⟨decodeWord_encodeWord (.dump x) rfl, fun h => exec_raises (.dump x (Nat.not_le.2 h)), fun h => ?_⟩
  have hout := sameMemoryOutside_stored (bs := s.regsUpTo x) hm (by rw [regsUpTo_length]; omega)
  rw [regsUpTo_length] at hout
  exact ⟨_, exec_dump h, fun _ hk => read_stored_regsUpTo hm h hk, hout, rfl, rfl⟩

/-- Settles O45: the fault when a byte lies above 4095, and else each register by `regsLoaded_getElem`. The registers
loaded are generalized, so that the frame, which holds for any, does not compute them. -/
theorem registerLoadReadsInOrder : Obligations.RegisterLoadReadsInOrder := by
  intro x s
  refine ⟨decodeWord_encodeWord (.load x) rfl, fun h => exec_raises (.load x (Nat.not_le.2 h)), fun h => ?_⟩
  have hexec := exec_load h
  have hreg := regsLoaded_getElem s x
  generalize s.regsLoaded x = v at hexec hreg
  exact ⟨_, hexec, fun k hk => (hreg k).trans (if_pos hk), fun k hk => (hreg k).trans (if_neg (Fin.not_le.2 hk)),
    fun _ => rfl, rfl, rfl⟩

/-- Settles O46, as R174 is derived from R172 and R173: the load reads at the same `I` the bytes that the dump left. -/
theorem dumpThenLoadRestoresRegisters : Obligations.DumpThenLoadRestoresRegisters := by
  intro x s hm hI
  obtain ⟨-, -, hdump⟩ := registerDumpStoresInOrder x s hm
  obtain ⟨t, ht, hstored, -⟩ := hdump hI
  refine ⟨t, ht, fun t' hkept hI' => ?_⟩
  obtain ⟨-, -, hload⟩ := registerLoadReadsInOrder x t'
  rw [hI'] at hload
  obtain ⟨u, hu, hloaded, -⟩ := hload hI
  refine ⟨u, hu, fun k hk => ?_⟩
  calc u.reg k
    _ = t'.mem.read (s.I.toNat + k.val) := hloaded k hk
    _ = t.mem.read (s.I.toNat + k.val) := hkept k hk
    _ = s.reg k := hstored k hk

end Sys2Proof.Machine
end

section
/-! SUPPORT. Timers and the key wait on one sample: LD Vx, DT, LD DT, Vx, LD ST, Vx and LD Vx, K (47_timer_key R180 to
R183). -/

namespace Sys2Proof.Machine

/-- Settles O47: the reader leaves a result in its destination, and each setter writes its one timer. -/
theorem timerGetAndSet : Obligations.TimerGetAndSet :=
  fun x s => ⟨decodeWord_encodeWord (.ldVxDT x) rfl, decodeWord_encodeWord (.ldDTVx x) rfl,
    decodeWord_encodeWord (.ldSTVx x) rfl,
    ⟨_, rfl, result_reg_self s x s.DT, rfl, onlyReg_result s x s.DT⟩,
    ⟨_, rfl, rfl, rfl, rfl, fun _ => rfl⟩,
    ⟨_, rfl, rfl, rfl, rfl, fun _ => rfl⟩⟩

/-- Settles O48: `k` is the least key down, and a key's number fits in a byte. -/
theorem keyWaitTakesTheLeastKeyDown : Obligations.KeyWaitTakesTheLeastKeyDown := by
  intro x s
  refine ⟨decodeWord_encodeWord (.ldVxK x) rfl, fun k hk hdown hlt => ?_,
    fun h => exec_ldVxK_held (leastKeyDown_eq_none.2 h)⟩
  have hleast : leastKeyDown s.keys = some k := leastKeyDown_eq_some.2 ⟨hk, hdown, hlt⟩
  have hbyte : (BitVec.ofNat 8 k).toNat = k := (BitVec.toNat_ofNat k 8).trans (Nat.mod_eq_of_lt (by omega))
  obtain ⟨-, hmem, hne⟩ := onlyReg_result s x (BitVec.ofNat 8 k)
  have hx := (congrArg BitVec.toNat (result_reg_self s x (BitVec.ofNat 8 k))).trans hbyte
  exact ⟨_, exec_ldVxK hleast, hx, rfl, rfl, hne, rfl, hmem⟩

end Sys2Proof.Machine
end

section
/-! SUPPORT. The host's operations: what one answers between steps and in a key wait, what a load leaves in memory, and
that each keeps the invariant (48_host_operations R190 to R196, R203). -/

namespace Sys2Proof.Machine

section
variable {s : State} (after : State)

/-- Between steps an operation is applied. -/
theorem betweenSteps_of_not_waiting (h : s.waiting = false) : s.betweenSteps after = .next after :=
  if_neg (ne_true_of_eq_false h)

/-- In a key wait an operation is refused (48_host_operations R203; log 9). -/
theorem betweenSteps_of_waiting (h : s.waiting = true) : s.betweenSteps after = .refused .stepInProgress := if_pos h

end

/-- An operation that was applied was applied between steps. -/
theorem betweenSteps_eq_next {s after t : State} (h : s.betweenSteps after = .next t) :
    s.waiting = false ∧ t = after := by
  cases hw : s.waiting with
  | true =>
    rw [betweenSteps_of_waiting after hw] at h
    nomatch h
  | false =>
    rw [betweenSteps_of_not_waiting after hw] at h
    exact ⟨rfl, (Host.Outcome.next.inj h).symm⟩

section
variable {s : State} {bs : List Byte} {o : Nat}

/-- A load that fits stores its bytes (48_host_operations R191). -/
theorem hostLoad_of_fits (h : o ≤ 4096 ∧ bs.length ≤ 4096 - o) : s.hostLoad bs o = s.setMem (s.mem.writeBytes o bs) :=
  if_pos (loadFits_iff.2 h)

/-- A load that does not fit takes the fault (48_host_operations R192). -/
theorem hostLoad_of_not_fits (h : ¬(o ≤ 4096 ∧ bs.length ≤ 4096 - o)) : s.hostLoad bs o = s.raise .loadSize :=
  if_neg (mt loadFits_iff.1 h)

/-- A load that fits ends at most at the end of memory. -/
theorem load_end_le (h : o ≤ 4096 ∧ bs.length ≤ 4096 - o) : o + bs.length ≤ 4096 := by omega

/-- Byte `k` of a load that fits (48_host_operations R191). -/
theorem hostLoad_read (hm : s.mem.wf = true) (hfit : o ≤ 4096 ∧ bs.length ≤ 4096 - o) {k : Nat} (hk : k < bs.length) :
    (s.hostLoad bs o).mem.read (o + k) = bs[k] := by
  rw [hostLoad_of_fits hfit, State.setMem_mem, Memory.read_writeBytes (load_end_le hfit) hm, dif_pos (by omega)]
  exact getElem_congr_idx (Nat.add_sub_cancel_left ..)

/-- A load that fits leaves the bytes outside it (48_host_operations R191). -/
theorem sameMemoryOutside_hostLoad (hm : s.mem.wf = true) (hfit : o ≤ 4096 ∧ bs.length ≤ 4096 - o) :
    SameMemoryOutside s (s.hostLoad bs o) o bs.length := by
  intro a ha
  rw [hostLoad_of_fits hfit, State.setMem_mem, Memory.read_writeBytes (load_end_le hfit) hm, dif_neg (by omega)]

/-- A load that fits changes memory alone. -/
theorem hostLoad_eq_of_fits (hfit : o ≤ 4096 ∧ bs.length ≤ 4096 - o) :
    s.hostLoad bs o = { s with mem := (s.hostLoad bs o).mem } := by
  rw [hostLoad_of_fits hfit]
  rfl

end

/-- The origin of a load: the one given, or 512 (48_host_operations R191). -/
theorem loadOrigin_eq {given : Option Nat} {origin : Nat} (h : given = some origin ∨ (given = none ∧ origin = 512)) :
    loadOrigin given = origin := by
  obtain rfl | ⟨rfl, rfl⟩ := h
  · exact loadOrigin_some origin
  · exact loadOrigin_none

/-- Settles O55: a load between steps is `State.hostLoad` at its origin, in the two cases of its size. -/
theorem hostLoadPlacesBytesVerbatim : Obligations.HostLoadPlacesBytesVerbatim := by
  intro bytes given origin s horigin hm hw
  have happly : applyHost (.load bytes given) s = .next (s.hostLoad bytes origin) := by
    rw [← loadOrigin_eq horigin]
    exact betweenSteps_of_not_waiting _ hw
  refine ⟨fun hfit => ⟨_, happly, fun _ => hostLoad_read hm hfit, sameMemoryOutside_hostLoad hm hfit,
    hostLoad_eq_of_fits hfit⟩, fun hfit => ?_⟩
  rw [happly, hostLoad_of_not_fits hfit]
  rfl

/-- The clauses about the block look at memory, the stack and `pc` only. -/
theorem State.CoreInv.of_eq {s t : State} (h : s.CoreInv) (hm : t.mem.wf = true) (hstack : t.stack = s.stack)
    (hpc : t.pc = s.pc) : t.CoreInv := by
  have hslot (k : Fin 16) : t.slot k = s.slot k := congrArg (·[k.val]) hstack
  exact ⟨hm, (hslot 0).trans h.slot_zero, fun k => hslot k ▸ h.slot_le k, hpc ▸ h.pc_le⟩

/-- An operation between steps keeps the invariant when it keeps the canonical form and leaves the stack, `pc` and
`waiting`: applied, it found and left no key wait. -/
theorem betweenSteps_inv {s after t : State} (hs : s.Inv) (h : s.betweenSteps after = .next t)
    (hm : after.mem.wf = true) (hstack : after.stack = s.stack) (hpc : after.pc = s.pc)
    (hwaiting : after.waiting = s.waiting) : t.Inv := by
  obtain ⟨hw, rfl⟩ := betweenSteps_eq_next h
  obtain ⟨hcore, -⟩ := inv_iff.1 hs
  exact inv_iff.2 ⟨hcore.of_eq hm hstack hpc, fun ht => by simp [hwaiting, hw] at ht⟩

/-- A load keeps the invariant: one that fits stores inside memory, and one that does not stores nothing. -/
theorem load_inv {s t : State} {bs : List Byte} {o : Nat} (hs : s.Inv)
    (h : s.betweenSteps (s.hostLoad bs o) = .next t) : t.Inv := by
  have hm : s.mem.wf = true := (inv_iff.1 hs).1.mem_wf
  by_cases hfit : o ≤ 4096 ∧ bs.length ≤ 4096 - o
  · rw [hostLoad_of_fits hfit] at h
    exact betweenSteps_inv hs h (Memory.writeBytes_wf (load_end_le hfit) hm) rfl rfl rfl
  · rw [hostLoad_of_not_fits hfit] at h
    exact betweenSteps_inv hs h hm rfl rfl rfl

/-- Settles O4: each operation of the host on its own; no clause of the invariant looks at the ports, which are all that
a reset keeps. -/
theorem hostOperationsKeepInvariant : Obligations.HostOperationsKeepInvariant := by
  intro op s t hs h
  have hm : s.mem.wf = true := (inv_iff.1 hs).1.mem_wf
  cases op with
  | reset =>
    obtain rfl := Host.Outcome.next.inj h
    exact resetMeetsInvariant
  | load bytes origin => exact load_inv hs h
  | seed w => exact betweenSteps_inv hs h hm rfl rfl rfl
  | step => exact stepKeepsInvariant s t hs h
  | writeKeys ks => exact betweenSteps_inv hs h hm rfl rfl rfl
  | clearDirty => exact betweenSteps_inv hs h hm rfl rfl rfl

/-- Settles O54. -/
theorem hostResetGivesTheResetState : Obligations.HostResetGivesTheResetState := fun _ => ⟨_, rfl, rfl, rfl⟩

/-- Settles O56. -/
theorem hostSeedKeysAndDirtyWriteOneElement : Obligations.HostSeedKeysAndDirtyWriteOneElement :=
  fun _ _ _ hw => ⟨betweenSteps_of_not_waiting _ hw, betweenSteps_of_not_waiting _ hw, betweenSteps_of_not_waiting _ hw⟩

/-- Settles O57: of the operations other than Step, each but Reset asks first whether a step is in progress. -/
theorem onlyResetIsAppliedInsideAKeyWait : Obligations.OnlyResetIsAppliedInsideAKeyWait := by
  intro op s hw hstep
  refine ⟨fun hreset => ?_, ?_⟩
  · cases op with
    | reset => exact absurd rfl hreset
    | step => exact absurd rfl hstep
    | load | seed | writeKeys | clearDirty => exact betweenSteps_of_waiting _ hw
  · rintro rfl
    exact ⟨_, rfl, rfl⟩

end Sys2Proof.Machine
end

section
/-! SUPPORT. The faults of the instructions, and the tick in the step that sets a timer (60_exceptions R210,
70_reset_and_hazards R235). -/

namespace Sys2Proof.Machine

/-- A fault that an instruction leaves in a state without one is the one it raised (60_exceptions R211). -/
theorem Effect.raises_of_fault {i : Instr} {s t : State} {k : Fault} (he : Effect s i t) (hs : s.fault = none)
    (hk : t.fault = some k) : Raises s i k := by
  obtain ⟨k', hraises, rfl⟩ | hf := he.raises_or_fault_eq
  · obtain rfl : k' = k := Option.some.inj hk
    exact hraises
  · rw [hf, hs] at hk
    nomatch hk

/-- Settles O16: `Raises` is the list of the faults. -/
theorem instructionsFaultOnlyAsListed : Obligations.InstructionsFaultOnlyAsListed := by
  intro i s t k hs hexec hk
  have hraises : Raises s i k := (effect_of_exec hexec).raises_of_fault hs hk
  cases hraises with
  | call nnn h => exact .inl ⟨⟨nnn, rfl⟩, h, rfl⟩
  | ret h => exact .inr (.inl ⟨rfl, h, rfl⟩)
  | skp x h => exact .inr (.inr (.inl ⟨x, .inl rfl, h, rfl⟩))
  | sknp x h => exact .inr (.inr (.inl ⟨x, .inr rfl, h, rfl⟩))
  | drw x y n h => exact .inr (.inr (.inr ⟨rfl, .inl ⟨x, y, n, rfl, by omega, by omega⟩⟩))
  | ldB x h => exact .inr (.inr (.inr ⟨rfl, .inr (.inl ⟨x, rfl, Nat.not_le.1 h⟩)⟩))
  | dump x h => exact .inr (.inr (.inr ⟨rfl, .inr (.inr ⟨x, .inl rfl, Nat.not_le.1 h⟩)⟩))
  | load x h => exact .inr (.inr (.inr ⟨rfl, .inr (.inr ⟨x, .inr rfl, Nat.not_le.1 h⟩)⟩))

/-- Settles O18: both steps complete, so their tick starts from what the instruction left. -/
theorem timerSetIsTickedInItsOwnStep : Obligations.TimerSetIsTickedInItsOwnStep := by
  constructor
  · intro s x hc hd
    refine ⟨_, step_completed hc hd rfl hc.1 rfl, ?_⟩
    rw [timerTick_eq]
    exact ⟨hc.1, countDown_toNat _, countDown_toNat _⟩
  · intro s x hc hd
    refine ⟨_, step_completed hc hd rfl hc.1 rfl, ?_⟩
    rw [timerTick_eq]
    exact ⟨hc.1, countDown_toNat _, countDown_toNat _, rfl⟩

end Sys2Proof.Machine
end
